-- ==== Sys2Proof/Word.lean ====
section
/-! DEFINITION. The widths the FCD works with: bytes, half words, bus words, window offsets (R6, R7). -/

namespace Sys2Proof

/-- A byte of a frame (R30). -/
abbrev Byte := BitVec 8

/-- A nibble field: unit, mode, fanState, ERR, OP. -/
abbrev Nibble := BitVec 4

/-- A 16-bit field of a frame (R11, `le16`). -/
abbrev Half := BitVec 16

/-- A word of the 32-bit host data bus (R6). -/
abbrev Word := BitVec 32

/-- A byte offset inside the block's 256-byte window (R6). -/
abbrev Offset := BitVec 8

end Sys2Proof
end

