-- ==== Sys2Proof/Syntax.lean ====
section
/-! DEFINITION. The commands of the FCD: one constructor per row of `spec/opcode_table.json` (R72). -/

namespace Sys2Proof

/-- A command. No command has an operand field (R71): each works on the frame buffer, FRAME_LEN and CTRL. -/
inductive Instr where
  /-- VERIFY, `verifyFrame` (R101). -/
  | verify
  /-- GEN, `buildFrame` (R102). -/
  | gen
  /-- DEC_DMM, `decodeMultimeterFrame` (R121). -/
  | decDmm
  /-- DEC_LOAD, `decodeLoadFrame` (R141). -/
  | decLoad
  deriving DecidableEq, Repr

end Sys2Proof
end

