-- ==== Sys2Proof/Decode.lean ====
section
/-! DEFINITION. The command decoder and encoder (`30_encoding.md` R70 to R74). -/

namespace Sys2Proof

/-- Why a CMD word is no command (R73), or why bytes are no CMD word. -/
inductive DecodeError where
  /-- fewer than the four bytes of a command word (R70) -/
  | truncated
  /-- RSVD is not 0, whatever OP is (R73) -/
  | reservedBits
  /-- OP is 0 or 5 to 15 (R73) -/
  | illegalOp (op : Nibble)
  deriving DecidableEq, Repr

/-- OP, bits 3:0 of a CMD word (R70). -/
def opField (w : Word) : Nibble := w.extractLsb' 0 4

/-- RSVD, bits 31:4 of a CMD word (R70). -/
def rsvdField (w : Word) : BitVec 28 := w.extractLsb' 4 28

/-- The command a CMD word selects (R72), or why it is illegal (R73). -/
def decodeWord (w : Word) : Except DecodeError Instr :=
  if rsvdField w ≠ 0 then .error .reservedBits
  else match (opField w).toNat with
    | 1 => .ok .verify
    | 2 => .ok .gen
    | 3 => .ok .decDmm
    | 4 => .ok .decLoad
    | _ => .error (.illegalOp (opField w))

/-- Four bytes, first byte first, as one little-endian word: byte `k` is bits `8k+7:8k` (R7, R57). -/
def wordOfBytes (b0 b1 b2 b3 : Byte) : Word := b3 ++ b2 ++ b1 ++ b0

/-- Byte `k` of a word, `w[8k+7:8k]` (R7). -/
def byteOfWord (w : Word) (k : Nat) : Byte := w.extractLsb' (8 * k) 8

/-- The command at the front of a byte list, and the bytes after it (log 10). -/
def decode : List Byte → Except DecodeError (Instr × List Byte)
  | b0 :: b1 :: b2 :: b3 :: rest =>
    match decodeWord (wordOfBytes b0 b1 b2 b3) with
    | .ok i => .ok (i, rest)
    | .error e => .error e
  | [] | [_] | [_, _] | [_, _, _] => .error .truncated

/-- The CMD word of a command (R72). -/
def encode : Instr → Word
  | .verify => 0x00000001#32
  | .gen => 0x00000002#32
  | .decDmm => 0x00000003#32
  | .decLoad => 0x00000004#32

/-- The four bytes of a word, lowest first (R7; log 10). -/
def bytesOfWord (w : Word) : List Byte := [byteOfWord w 0, byteOfWord w 1, byteOfWord w 2, byteOfWord w 3]

/-- The CMD word of an instruction whose bits, numbered as `spec/opcode_table.json` numbers them, are the low `nbits`
bits of `w`: every bit above `nbits` is 0 (R70). -/
def tableWord (nbits w : Nat) : Word := BitVec.ofNat 32 (w % 2 ^ nbits)

/-- The instruction the decoder reads from the bytes of that word. -/
def decodeTableWord (nbits w : Nat) : Option Instr :=
  match decode (bytesOfWord (tableWord nbits w)) with
  | .ok (i, _) => some i
  | .error _ => none

end Sys2Proof
end

