-- ==== Sys2Proof/Config.lean ====
section
/-! DEFINITION. What an implementation fixes, and the one free value (`00_scope.md` R5, R6; `93_implementation_defined.md` I1, I7, I8). -/

namespace Sys2Proof

/-- `FRAME_CAP`, the number of bytes the frame buffer holds: 32 for this hardware (R5, I7; log 1). -/
def Config.frameCap : Nat := 32

/-- `FCD_BASE`, the block's base address in the platform: an open parameter that no rule reads (R6, R65, I8), so
nothing in the model reads it either (log 11). -/
opaque Config.fcdBase : Nat

/-- The value of frame byte `i` after the reset numbered `resets`, until it is written (R35, R190, I1). It has no
body: nothing is known of it (log 2). -/
opaque Config.frameResetByte (resets i : Nat) : Byte

end Sys2Proof
end

