-- ==== Sys2Proof/Machine/HostSyntax.lean ====
section
/-! DEFINITION. What the host can send: register names, bus accesses, reset, and the lines of a host program (R22, R51, R52, R75, R76, R190). -/

namespace Sys2Proof

/-- The registers of the map (R22). `frame k` is the frame window word `FRAME[k]`. -/
inductive Reg where
  | ctrl | cmd | status | frameLen | csum
  | dmmExpb | dmmUnit | dmmExp | dmmMant | dmmRaw1 | dmmRaw2
  | ldLen | ldUnk1 | ldMode | ldFan | ldRunflag | ldVolt | ldCurr | ldRunt | ldTemp | ldSetp
  | frame (k : Nat)
  deriving DecidableEq, Repr

/-- One host bus access (R52): its offset in the window, its width in bytes, and a write's data. The block performs
those of width 4 only (R51); the others are answered with a bus error. -/
inductive Access where
  | read (off : Offset) (width : Nat)
  | write (off : Offset) (width : Nat) (v : Word)
  deriving DecidableEq, Repr

/-- What the bus answers to an access (R52, R53): whether it is a bus error, and a read's data. -/
structure Response where
  busError : Bool
  data : Option Word
  deriving DecidableEq, Repr

/-- What can happen to the block (R16, R190): a host access, or a reset. `lost` lists the accesses in progress when
reset is asserted or tried while it is asserted: none of them is performed (R190, I9; log 8). -/
inductive HostEvent where
  | access (a : Access)
  | reset (lost : List Access)
  deriving DecidableEq, Repr

/-- A line of a host program (R75), the pseudo-instructions of R76 included. -/
inductive HostLine where
  /-- `WR <reg>, <value>` -/
  | wr (r : Reg) (v : Word)
  /-- `RD <reg>` -/
  | rd (r : Reg)
  /-- `VERIFY`, `GEN`, `DEC_DMM`, `DEC_LOAD` -/
  | command (i : Instr)
  /-- `LOADFRAME b0 b1 ... b(n-1)` -/
  | loadFrame (bytes : List Byte)
  /-- `SETGATE g` -/
  | setGate (g : Nat)
  deriving DecidableEq, Repr

end Sys2Proof
end

