-- ==== Sys2Proof/Machine/State.lean ====
section
/-! DEFINITION. The state of the FCD (`10_state.md` R20), the host's side of the bus, and reset (R35). Reserved and unused high bits are not stored: reading a register composes them as 0 (R32; log 9). -/

namespace Sys2Proof.Machine

/-- CTRL (R23). -/
structure Ctrl where
  /-- bit 0: the checksum gate -/
  gateEn : Bool
  deriving DecidableEq, Repr

/-- STATUS (R25). -/
structure Status where
  /-- bits 3:0: outcome of the most recent command -/
  err : Nibble
  /-- bit 4: the most recent VERIFY found the byte sum 0 mod 256 -/
  csumOk : Bool
  /-- bit 5: the most recent DEC_DMM completed with ERR = 0 -/
  dmmValid : Bool
  /-- bit 6: the most recent DEC_LOAD completed with ERR = 0 -/
  ldValid : Bool
  deriving DecidableEq, Repr

/-- CSUM (R27). -/
structure Csum where
  /-- bits 7:0 -/
  sum : Byte
  /-- bits 15:8 -/
  chk : Byte
  deriving DecidableEq, Repr

/-- The DMM result bank (R28), each register at its bits used. -/
structure DmmBank where
  expb : Byte
  unit : Nibble
  exp : Word
  mant : Half
  raw1 : Half
  raw2 : Half
  deriving DecidableEq, Repr

/-- The LOAD result bank (R29), each register at its bits used. -/
structure LoadBank where
  len : Byte
  unk1 : Byte
  mode : Nibble
  fan : Nibble
  runflag : Byte
  volt : Word
  curr : Word
  runt : Word
  temp : Word
  setp : Word
  deriving DecidableEq, Repr

/-- The frame buffer: the bytes written since the last reset as (index, byte) cells, indices strictly rising. A byte
not listed has not been written since reset and holds its unspecified reset value (R30, R35; log 2). -/
abbrev Memory := List Host.Cell

/-- Why the machine stops: never. Every host access completes and every command terminates (R196), so there is no
fault. -/
inductive Fault where
  deriving DecidableEq, Repr

/-- Why an instruction has no meaning in the model. -/
inductive Refusal where
  /-- raised by an arm of `exec` whose instruction has no meaning yet: none now (safe) -/
  | notModelled (mnemonic : String)
  deriving DecidableEq, Repr

/-- The state: the architectural state of R20, then the model's own fields `resets`, `pending` and `response`. -/
structure State where
  ctrl : Ctrl
  status : Status
  /-- FRAME_LEN.LEN (R26) -/
  frameLen : Byte
  csum : Csum
  dmm : DmmBank
  load : LoadBank
  frame : Memory
  /-- how many resets there have been: each leaves new unspecified frame bytes (log 2, 3) -/
  resets : Nat
  /-- what the host does next, oldest first (R16, R60; log 4) -/
  pending : List HostEvent
  /-- the answer to the most recent access, if there is one (log 6) -/
  response : Option Response
  deriving DecidableEq, Repr

/-- The state right after reset (R35, R192). -/
def State.reset : State where
  ctrl := { gateEn := true }
  status := { err := 0, csumOk := false, dmmValid := false, ldValid := false }
  frameLen := 0
  csum := { sum := 0, chk := 0 }
  dmm := { expb := 0, unit := 0, exp := 0, mant := 0, raw1 := 0, raw2 := 0 }
  load := { len := 0, unk1 := 0, mode := 0, fan := 0, runflag := 0,
            volt := 0, curr := 0, runt := 0, temp := 0, setp := 0 }
  frame := []
  resets := 0
  pending := []
  response := none

end Sys2Proof.Machine
end

