-- ==== Sys2Proof/Machine/Flags.lean ====
section
/-! DEFINITION. The flags of the FCD are the fields of STATUS (R25, R33): the error codes, each field's writer, and the values the commands compute for them. -/

namespace Sys2Proof.Machine

/-- The command errors (R171). -/
inductive CmdError where
  | frameTooShort
  | checksumMismatch
  | illegalCommand
  | frameFull
  deriving DecidableEq, Repr

/-- The error codes of STATUS.ERR (R171). -/
def CmdError.code : CmdError → Nibble
  | .frameTooShort => 1
  | .checksumMismatch => 2
  | .illegalCommand => 3
  | .frameFull => 4

/-- ERR code 0, NONE (R171). -/
def errNone : Nibble := 0

/-- `x[STATUS].ERR <- c` -/
def State.setErr (c : Nibble) (s : State) : State := { s with status := { s.status with err := c } }

/-- `x[STATUS].CSUM_OK <- b` -/
def State.setCsumOk (b : Bool) (s : State) : State := { s with status := { s.status with csumOk := b } }

/-- `x[STATUS].DMM_VALID <- b` -/
def State.setDmmValid (b : Bool) (s : State) : State := { s with status := { s.status with dmmValid := b } }

/-- `x[STATUS].LD_VALID <- b` -/
def State.setLdValid (b : Bool) (s : State) : State := { s with status := { s.status with ldValid := b } }

/-- The value of CSUM_OK for a frame sum (R101). -/
def sumIsZero (sum : Nat) : Bool := decide (sum = 0)

/-- STATUS as one word: LD_VALID, DMM_VALID, CSUM_OK, ERR, and 0 above (R25). -/
def Status.word (st : Status) : Word :=
  (BitVec.ofBool st.ldValid ++ BitVec.ofBool st.dmmValid ++ BitVec.ofBool st.csumOk ++ st.err).setWidth 32

end Sys2Proof.Machine
end

