-- ==== Sys2Proof/Machine/Ops.lean ====
section
/-! DEFINITION. The named operations over the frame buffer and the registers, the one operation that ends a command in an error (R10, R170 to R172), and the reset of the block (R190). -/

namespace Sys2Proof.Machine

/-- The byte written at an index, if one was. -/
def Memory.read? : Memory → Nat → Option Byte
  | [], _ => none
  | (j, b) :: m, i => if j = i then some b else Memory.read? m i

/-- Write a byte, keeping the indices strictly rising. -/
def Memory.write : Memory → Nat → Byte → Memory
  | [], i, v => [(i, v)]
  | (j, b) :: m, i, v =>
    if i < j then (i, v) :: (j, b) :: m
    else if i = j then (i, v) :: m
    else (j, b) :: Memory.write m i v

/-- The indices are strictly rising, from `lo` up, and below `FRAME_CAP`. -/
def Memory.risingFrom : Nat → Memory → Bool
  | _, [] => true
  | lo, (j, _) :: m => decide (lo ≤ j) && decide (j < Config.frameCap) && Memory.risingFrom (j + 1) m

/-- The canonical form of the frame buffer: strictly rising indices, all below `FRAME_CAP` (R30). -/
def Memory.wf (m : Memory) : Bool := Memory.risingFrom 0 m

/-- `frame[i]` (R10, R30): the byte written there since the last reset, or else its unspecified reset value (R35, I1). -/
def State.frameByte (s : State) (i : Nat) : Byte := (Memory.read? s.frame i).getD (Config.frameResetByte s.resets i)

/-- `frame[i] <- v` (R10). -/
def State.setFrameByte (i : Nat) (v : Byte) (s : State) : State := { s with frame := Memory.write s.frame i v }

/-- LEN as a number (R26). -/
def State.len (s : State) : Nat := s.frameLen.toNat

/-- `x[CTRL].GATE_EN <- b` (R23). -/
def State.setGateEn (b : Bool) (s : State) : State := { s with ctrl := { s.ctrl with gateEn := b } }

/-- `x[FRAME_LEN].LEN <- n` (R26). -/
def State.setLen (n : Byte) (s : State) : State := { s with frameLen := n }

/-- `x[CSUM].SUM <- sum` and `x[CSUM].CHK <- chk` (R27). -/
def State.setCsum (sum chk : Byte) (s : State) : State := { s with csum := { sum := sum, chk := chk } }

/-- Write the DMM bank (R28). -/
def State.setDmm (b : DmmBank) (s : State) : State := { s with dmm := b }

/-- Write the LOAD bank (R29). -/
def State.setLoad (b : LoadBank) (s : State) : State := { s with load := b }

/-- The bus answers an access (log 6). -/
def State.respond (r : Response) (s : State) : State := { s with response := some r }

/-- A command error (R170 to R172, R176): the command ends, its code is left in ERR, and nothing else is written. What
the command wrote before `raise` is in `s` already (R10). There is no trap and so nothing to return from. -/
def raiseError (e : CmdError) (s : State) : Host.Outcome State Fault Refusal := .next (s.setErr e.code)

/-- A command that completes leaves ERR 0 (R171). -/
def complete (s : State) : Host.Outcome State Fault Refusal := .next (s.setErr errNone)

/-- The reset event (R190): every register at its reset value, every frame byte at a new unspecified value. The host's
further accesses are the host's, and no access has been answered (log 8). -/
def State.resetBlock (s : State) : State := { State.reset with resets := s.resets + 1, pending := s.pending }

/-- CSUM as one word: CHK, SUM, and 0 above (R27). -/
def Csum.word (c : Csum) : Word := (c.chk ++ c.sum).setWidth 32

/-- CTRL as one word: GATE_EN, and 0 above (R23). -/
def Ctrl.word (c : Ctrl) : Word := (BitVec.ofBool c.gateEn).setWidth 32

/-- `FRAME[k]`: the bytes `frame[4k]` to `frame[4k+3]`, little-endian (R31, R56). -/
def State.frameWord (s : State) (k : Nat) : Word :=
  wordOfBytes (s.frameByte (4 * k)) (s.frameByte (4 * k + 1)) (s.frameByte (4 * k + 2)) (s.frameByte (4 * k + 3))

/-- A frame window write: `frame[4k+i] <- v[8i+7:8i]` for `i` = 0 to 3 and nothing else (R55). -/
def State.writeFrameWord (k : Nat) (v : Word) (s : State) : State :=
  (((s.setFrameByte (4 * k) (byteOfWord v 0)).setFrameByte (4 * k + 1) (byteOfWord v 1)).setFrameByte
    (4 * k + 2) (byteOfWord v 2)).setFrameByte (4 * k + 3) (byteOfWord v 3)

/-- A host write to FRAME_LEN (R26): bits 7:0 where they are at most `FRAME_CAP`, else nothing. -/
def State.writeFrameLen (v : Word) (s : State) : State :=
  if (byteOfWord v 0).toNat ≤ Config.frameCap then s.setLen (byteOfWord v 0) else s

end Sys2Proof.Machine
end

