-- ==== Sys2Proof/Machine/Operands.lean ====
section
/-! DEFINITION. What the commands read (R11, R71, R103, R122, R142 to R147) and what a reader makes of the results (R12, R13, R125, R145). -/

namespace Sys2Proof.Machine

/-- `frame[0] + ... + frame[n-1]` (R11). -/
def State.byteSum (s : State) : Nat → Nat
  | 0 => 0
  | n + 1 => s.byteSum n + (s.frameByte n).toNat

/-- `sum8(n)` (R11). -/
def State.sum8 (s : State) (n : Nat) : Nat := s.byteSum n % 256

/-- The checksum byte for a sum: `(256 - S) mod 256` (R100). -/
def checksumOf (sum : Nat) : Byte := BitVec.ofNat 8 ((256 - sum) % 256)

/-- `le16(i)` (R11). -/
def State.le16 (s : State) (i : Nat) : Half := BitVec.ofNat 16 ((s.frameByte i).toNat + 256 * (s.frameByte (i + 1)).toNat)

/-- `le32(i)` (R11). -/
def State.le32 (s : State) (i : Nat) : Word :=
  BitVec.ofNat 32 ((s.frameByte i).toNat + 2 ^ 8 * (s.frameByte (i + 1)).toNat
    + 2 ^ 16 * (s.frameByte (i + 2)).toNat + 2 ^ 24 * (s.frameByte (i + 3)).toNat)

/-- The high nibble of a byte, `b >> 4` (R122, R143). -/
def highNibble (b : Byte) : Nibble := b.extractLsb' 4 4

/-- The low nibble of a byte, `b & 0x0F` (R122, R143). -/
def lowNibble (b : Byte) : Nibble := b.extractLsb' 0 4

/-- The decimal exponent of an exponent byte: `3 * unit - (lo div 2)` (R122). -/
def dmmExponent (e : Byte) : Int := 3 * ((highNibble e).toNat : Int) - (((lowNibble e).toNat / 2 : Nat) : Int)

/-- The checksum gate (R103). -/
def State.gateOk (s : State) : Bool := !s.ctrl.gateEn || sumIsZero (s.sum8 s.len)

/-- The checks of a decoder whose layout needs `minLen` bytes, in the order of R173: the length, then the gate. -/
def State.decodeError? (minLen : Nat) (s : State) : Option CmdError :=
  if s.len < minLen then some .frameTooShort
  else if s.gateOk then none
  else some .checksumMismatch

/-- The two's-complement value of a word (R8). -/
def s32 (w : Word) : Int := if w.toNat < 2 ^ 31 then (w.toNat : Int) else (w.toNat : Int) - 2 ^ 32

/-- The exact rational `m * base^e`. -/
def scaled (base : Nat) (m e : Int) : Rat :=
  if 0 ≤ e then ((m * (base : Int) ^ e.toNat : Int) : Rat) else mkRat m (base ^ (-e).toNat)

/-- The decimal value of the multimeter, `m * 10^e` (R13). -/
def dval (m e : Int) : Rat := scaled 10 m e

/-- What a binary32 word denotes (R12). A finite value keeps its sign bit, which tells the two zeros apart. -/
inductive F32Val where
  | finite (neg : Bool) (value : Rat)
  | infinity (neg : Bool)
  | nan
  deriving DecidableEq, Repr

/-- The binary32 reading of a word (R12, R146; log 13). The block never computes it. -/
def f32val (w : Word) : F32Val :=
  let neg := w.getLsbD 31
  let sign : Int := if neg then -1 else 1
  let e := (w.extractLsb' 23 8).toNat
  let f := (w.extractLsb' 0 23).toNat
  if e = 0 then .finite neg (scaled 2 (sign * f) (-149))
  else if e < 255 then .finite neg (scaled 2 (sign * (2 ^ 23 + f : Nat)) ((e : Int) - 150))
  else if f = 0 then .infinity neg
  else .nan

/-- The multimeter reading's value, defined whenever DMM_VALID is 1 (R125). -/
def State.dmmValue? (s : State) : Option Rat :=
  if s.status.dmmValid then some (dval s.dmm.mant.toNat (s32 s.dmm.exp)) else none

/-- The Load Reading of the result bank as numbers (R29, R142 to R147): the words read as R12 and R8 read them. -/
structure LoadReading where
  length : Nat
  unknownByte1 : Nat
  mode : Nat
  fanState : Nat
  runFlag : Nat
  voltage : F32Val
  current : F32Val
  runTimeSeconds : Int
  temperature : F32Val
  setpoint : F32Val
  deriving DecidableEq, Repr

/-- What the LOAD bank says, while LD_VALID is 1. -/
def State.loadReading? (s : State) : Option LoadReading :=
  if s.status.ldValid then
    some { length := s.load.len.toNat, unknownByte1 := s.load.unk1.toNat, mode := s.load.mode.toNat,
           fanState := s.load.fan.toNat, runFlag := s.load.runflag.toNat, voltage := f32val s.load.volt,
           current := f32val s.load.curr, runTimeSeconds := s32 s.load.runt, temperature := f32val s.load.temp,
           setpoint := f32val s.load.setp }
  else none

end Sys2Proof.Machine
end

