-- ==== Sys2Proof/Machine/Checksum.lean ====
section
/-! DEFINITION. The checksum commands VERIFY and GEN (`40_checksum.md` R100 to R102). -/

namespace Sys2Proof.Machine

/-- VERIFY (R101). A frame that fails the check is a result, not an error. -/
def execVerify (s : State) : Host.Outcome State Fault Refusal :=
  let sum := s.sum8 s.len
  complete ((s.setCsum (BitVec.ofNat 8 sum) (checksumOf sum)).setCsumOk (sumIsZero sum))

/-- GEN (R102). The full buffer is found before anything is written; SUM is the payload's, before the append. -/
def execGen (s : State) : Host.Outcome State Fault Refusal :=
  if s.len = Config.frameCap then raiseError .frameFull s
  else
    let sum := s.sum8 s.len
    let chk := checksumOf sum
    complete (((s.setFrameByte s.len chk).setLen (BitVec.ofNat 8 (s.len + 1))).setCsum (BitVec.ofNat 8 sum) chk)

end Sys2Proof.Machine
end

