-- ==== Sys2Proof/Machine/DmmDecode.lean ====
section
/-! DEFINITION. The multimeter decode DEC_DMM (`41_multimeter_decode.md` R120 to R129). -/

namespace Sys2Proof.Machine

/-- The shortest multimeter frame (R120, R121). -/
def dmmMinLen : Nat := 17

/-- The fields of a multimeter frame (R120 to R124): each from the frame bytes themselves (R126), not normalised (R127). -/
def State.dmmFields (s : State) : DmmBank where
  expb := s.frameByte 9
  unit := highNibble (s.frameByte 9)
  exp := BitVec.ofInt 32 (dmmExponent (s.frameByte 9))
  mant := s.le16 14
  raw1 := s.le16 10
  raw2 := s.le16 12

/-- DEC_DMM (R121). On an error the bank keeps its values and DMM_VALID is 0 (R172). -/
def execDecDmm (s : State) : Host.Outcome State Fault Refusal :=
  match s.decodeError? dmmMinLen with
  | some e => raiseError e (s.setDmmValid false)
  | none => complete ((s.setDmm s.dmmFields).setDmmValid true)

end Sys2Proof.Machine
end

