-- ==== Sys2Proof/Machine/LoadDecode.lean ====
section
/-! DEFINITION. The load decode DEC_LOAD (`42_load_decode.md` R140 to R149). -/

namespace Sys2Proof.Machine

/-- The shortest load frame (R140, R141). -/
def loadMinLen : Nat := 27

/-- The fields of a load frame (R140, R142 to R147), the 32-bit words bit for bit (R146). -/
def State.loadFields (s : State) : LoadBank where
  len := s.frameLen
  unk1 := s.frameByte 4
  mode := lowNibble (s.frameByte 5)
  fan := highNibble (s.frameByte 5)
  runflag := s.frameByte 6
  volt := s.le32 7
  curr := s.le32 11
  runt := s.le32 15
  temp := s.le32 19
  setp := s.le32 23

/-- DEC_LOAD (R141). On an error the bank keeps its values and LD_VALID is 0 (R172). -/
def execDecLoad (s : State) : Host.Outcome State Fault Refusal :=
  match s.decodeError? loadMinLen with
  | some e => raiseError e (s.setLdValid false)
  | none => complete ((s.setLoad s.loadFields).setLdValid true)

end Sys2Proof.Machine
end

