-- ==== Sys2Proof/Machine/Dispatch.lean ====
section
/-! DEFINITION. The dispatch of a command to its meaning (R72, R73): one arm per constructor of Instr. -/

namespace Sys2Proof.Machine

def exec (i : Instr) (s : State) : Host.Outcome State Fault Refusal :=
  match i with
  | .verify => Sys2Proof.Machine.execVerify s
  | .gen => Sys2Proof.Machine.execGen s
  | .decDmm => Sys2Proof.Machine.execDecDmm s
  | .decLoad => Sys2Proof.Machine.execDecLoad s

end Sys2Proof.Machine
end

