-- ==== Sys2Proof/WellFormed.lean ====
section
/-! DEFINITION. Which terms of the syntax are well formed: commands have no operands to check (R71); host program lines have a frame window index, a frame length and a gate value to check (R75, R76). -/

namespace Sys2Proof

/-- A command has no field (R71), so every command is well formed. -/
def Instr.wf : Instr → Bool
  | .verify => true
  | .gen => true
  | .decDmm => true
  | .decLoad => true

/-- `FRAME[k]` exists for `0 <= k < FRAME_CAP/4` only (R31). -/
def Reg.wf : Reg → Bool
  | .frame k => decide (k < Config.frameCap / 4)
  | .ctrl | .cmd | .status | .frameLen | .csum
  | .dmmExpb | .dmmUnit | .dmmExp | .dmmMant | .dmmRaw1 | .dmmRaw2
  | .ldLen | .ldUnk1 | .ldMode | .ldFan | .ldRunflag | .ldVolt | .ldCurr | .ldRunt | .ldTemp | .ldSetp => true

/-- The assembler refuses a register that does not exist, a `LOADFRAME` of more than `FRAME_CAP` bytes and a gate
value other than 0 and 1 (R76). -/
def HostLine.wf : HostLine → Bool
  | .wr r _ => r.wf
  | .rd r => r.wf
  | .command i => i.wf
  | .loadFrame bytes => decide (bytes.length ≤ Config.frameCap)
  | .setGate g => decide (g ≤ 1)

end Sys2Proof
end

