-- ==== Sys2Proof/Machine/RegMap.lean ====
section
/-! DEFINITION. The register map and what a read of each register returns (`10_state.md` R22 to R32, `20_memory.md` R53). -/

namespace Sys2Proof

/-- The rows of the register map but for the frame window (R22). -/
def regRows : List (Offset × Reg) :=
  [(0x00, .ctrl), (0x04, .cmd), (0x08, .status), (0x0C, .frameLen), (0x10, .csum),
   (0x20, .dmmExpb), (0x24, .dmmUnit), (0x28, .dmmExp), (0x2C, .dmmMant), (0x30, .dmmRaw1), (0x34, .dmmRaw2)]
  ++
  [(0x40, .ldLen), (0x44, .ldUnk1), (0x48, .ldMode), (0x4C, .ldFan), (0x50, .ldRunflag),
   (0x54, .ldVolt), (0x58, .ldCurr), (0x5C, .ldRunt), (0x60, .ldTemp), (0x64, .ldSetp)]

/-- The first offset of the frame window (R22). -/
def frameBase : Nat := 0x80

/-- The register at an offset, none where the map has none (R22, R52): the frame window first, then the rows. -/
def regAt (off : Offset) : Option Reg :=
  if frameBase ≤ off.toNat ∧ off.toNat < frameBase + Config.frameCap ∧ off.toNat % 4 = 0 then
    some (.frame ((off.toNat - frameBase) / 4))
  else regRows.lookup off

/-- The offset of a register (R22, R31). -/
def Reg.offset : Reg → Offset
  | .ctrl => 0x00
  | .cmd => 0x04
  | .status => 0x08
  | .frameLen => 0x0C
  | .csum => 0x10
  | .dmmExpb => 0x20
  | .dmmUnit => 0x24
  | .dmmExp => 0x28
  | .dmmMant => 0x2C
  | .dmmRaw1 => 0x30
  | .dmmRaw2 => 0x34
  | .ldLen => 0x40
  | .ldUnk1 => 0x44
  | .ldMode => 0x48
  | .ldFan => 0x4C
  | .ldRunflag => 0x50
  | .ldVolt => 0x54
  | .ldCurr => 0x58
  | .ldRunt => 0x5C
  | .ldTemp => 0x60
  | .ldSetp => 0x64
  | .frame k => BitVec.ofNat 8 (frameBase + 4 * k)

namespace Machine

/-- What a read of a register returns (R53): reserved and unused bits 0 (R32), CMD 0 (R24), a window word packed (R56). -/
def State.readReg (s : State) : Reg → Word
  | .ctrl => s.ctrl.word
  | .cmd => 0
  | .status => s.status.word
  | .frameLen => s.frameLen.setWidth 32
  | .csum => s.csum.word
  | .dmmExpb => s.dmm.expb.setWidth 32
  | .dmmUnit => s.dmm.unit.setWidth 32
  | .dmmExp => s.dmm.exp
  | .dmmMant => s.dmm.mant.setWidth 32
  | .dmmRaw1 => s.dmm.raw1.setWidth 32
  | .dmmRaw2 => s.dmm.raw2.setWidth 32
  | .ldLen => s.load.len.setWidth 32
  | .ldUnk1 => s.load.unk1.setWidth 32
  | .ldMode => s.load.mode.setWidth 32
  | .ldFan => s.load.fan.setWidth 32
  | .ldRunflag => s.load.runflag.setWidth 32
  | .ldVolt => s.load.volt
  | .ldCurr => s.load.curr
  | .ldRunt => s.load.runt
  | .ldTemp => s.load.temp
  | .ldSetp => s.load.setp
  | .frame k => s.frameWord k

end Machine

end Sys2Proof
end

