-- ==== Sys2Proof/Machine/Bus.lean ====
section
/-! DEFINITION. What the block does for each event: a bus access (`20_memory.md` R50 to R56), the command of a CMD write (R73), a reset (R190). -/

namespace Sys2Proof.Machine

/-- A CMD write (R24, R73): the command the word encodes, or ERR <- 3 and nothing else. -/
def cmdWrite (v : Word) (s : State) : Host.Outcome State Fault Refusal :=
  match decodeWord v with
  | .ok i => exec i s
  | .error _ => raiseError .illegalCommand s

/-- A write to a register (R54): the read-only ones ignore it (R32). -/
def writeReg (r : Reg) (v : Word) (s : State) : Host.Outcome State Fault Refusal :=
  match r with
  | .ctrl => .next (s.setGateEn (v.getLsbD 0))
  | .cmd => cmdWrite v s
  | .frameLen => .next (s.writeFrameLen v)
  | .frame k => .next (s.writeFrameWord k v)
  | .status | .csum
  | .dmmExpb | .dmmUnit | .dmmExp | .dmmMant | .dmmRaw1 | .dmmRaw2
  | .ldLen | .ldUnk1 | .ldMode | .ldFan | .ldRunflag | .ldVolt | .ldCurr | .ldRunt | .ldTemp | .ldSetp => .next s

/-- The register an access reaches: none where its width is not 4, its offset not a multiple of 4, or its offset
unmapped (R51, R52). -/
def target? (off : Offset) (width : Nat) : Option Reg :=
  if width = 4 ∧ off.toNat % 4 = 0 then regAt off else none

/-- The bus error answer: a read returns data 0 beside it, a write nothing (R52). -/
def busErrorTo : Access → Response
  | .read _ _ => { busError := true, data := some 0 }
  | .write _ _ _ => { busError := true, data := none }

/-- The answer to a write that is performed. -/
def writeDone : Response := { busError := false, data := none }

/-- One host access (R52 to R54): a bus error changes nothing of the block, and neither does a read. -/
def access (a : Access) (s : State) : Host.Outcome State Fault Refusal :=
  match a with
  | .read off width =>
    match target? off width with
    | some r => .next (s.respond { busError := false, data := some (s.readReg r) })
    | none => .next (s.respond (busErrorTo a))
  | .write off width v =>
    match target? off width with
    | some r => writeReg r v (s.respond writeDone)
    | none => .next (s.respond (busErrorTo a))

/-- One event (R16, R190). The accesses a reset cuts off are lost (I9; log 8). -/
def perform (e : HostEvent) (s : State) : Host.Outcome State Fault Refusal :=
  match e with
  | .access a => access a s
  | .reset _ => .next s.resetBlock

/-- The host has sent its oldest event. -/
def State.sent (s : State) : State := { s with pending := s.pending.tail }

/-- What the block does next: the host's oldest event, or nothing when the host sends nothing (R16, R191; log 5). -/
def serve (s : State) : Host.Outcome State Fault Refusal :=
  match s.pending with
  | [] => .next s
  | e :: _ => perform e s.sent

/-- The host event that writes a word to CMD (R70, R76). -/
def cmdEvent (w : Word) : HostEvent := .access (.write Reg.cmd.offset 4 w)

end Sys2Proof.Machine
end

