-- ==== Sys2Proof/Machine/Step.lean ====
section
/-! DEFINITION. One step of the machine: one host event, performed to completion (R16, R58, R60, R194). -/

namespace Sys2Proof.Machine

/-- One step. -/
def step (s : State) : Host.Outcome State Fault Refusal := serve s

/-- `s` with a host that next writes the given instruction word to CMD. The FCD fetches nothing (R21, R63): its next
instruction is the word of the host's next CMD write (log 4). -/
def State.withFetchWord (s : State) (nbits w : Nat) : State :=
  { s with pending := cmdEvent (tableWord nbits w) :: s.pending }

end Sys2Proof.Machine
end

