-- ==== Sys2Proof/Machine/HostProgram.lean ====
section
/-! DEFINITION. Host programs (`30_encoding.md` R75 to R77): what each line expands to, which lines are refused, and the text they are written in. -/

namespace Sys2Proof

/-- Byte `j` of a frame to load: 0 beyond its end (R76). -/
def padByte (bytes : List Byte) (j : Nat) : Byte := bytes.getD j 0

/-- `WR <reg>, <value>` as an access (R75). -/
def writeTo (r : Reg) (v : Word) : Access := .write r.offset 4 v

/-- The accesses of `LOADFRAME` (R76): the window words of the frame, its last word padded with 0, then its length. -/
def loadFrameAccesses (bytes : List Byte) : List Access :=
  (List.range ((bytes.length + 3) / 4)).map (fun k => writeTo (.frame k)
    (wordOfBytes (padByte bytes (4 * k)) (padByte bytes (4 * k + 1)) (padByte bytes (4 * k + 2)) (padByte bytes (4 * k + 3))))
  ++ [writeTo .frameLen (BitVec.ofNat 32 bytes.length)]

/-- The accesses a line stands for (R75, R76). -/
def HostLine.expand : HostLine → List Access
  | .wr r v => [writeTo r v]
  | .rd r => [.read r.offset 4]
  | .command i => [writeTo .cmd (encode i)]
  | .loadFrame bytes => loadFrameAccesses bytes
  | .setGate g => [writeTo .ctrl (BitVec.ofNat 32 g)]

/-- The accesses of a program; the assembler refuses it where a line is ill formed (R76). -/
def assemble : List HostLine → Option (List Access)
  | [] => some []
  | l :: ls => if l.wf then (assemble ls).map (l.expand ++ ·) else none

/-- The names the program text gives the registers (R22, R75). -/
def regNames : List (String × Reg) :=
  [("CTRL", .ctrl), ("CMD", .cmd), ("STATUS", .status), ("FRAME_LEN", .frameLen), ("CSUM", .csum),
   ("DMM_EXPB", .dmmExpb), ("DMM_UNIT", .dmmUnit), ("DMM_EXP", .dmmExp), ("DMM_MANT", .dmmMant),
   ("DMM_RAW1", .dmmRaw1), ("DMM_RAW2", .dmmRaw2)]
  ++
  [("LD_LEN", .ldLen), ("LD_UNK1", .ldUnk1), ("LD_MODE", .ldMode), ("LD_FAN", .ldFan), ("LD_RUNFLAG", .ldRunflag),
   ("LD_VOLT", .ldVolt), ("LD_CURR", .ldCurr), ("LD_RUNT", .ldRunt), ("LD_TEMP", .ldTemp), ("LD_SETP", .ldSetp)]

/-- The names of the commands (R72, R76). -/
def commandNames : List (String × Instr) :=
  [("VERIFY", .verify), ("GEN", .gen), ("DEC_DMM", .decDmm), ("DEC_LOAD", .decLoad)]

/-- All of a list of answers, or none. -/
def allSome {α : Type} : List (Option α) → Option (List α)
  | [] => some []
  | none :: _ => none
  | some x :: xs => (allSome xs).map (x :: ·)

/-- The digits in the order of their values, written as R7 writes hex bytes; a base uses the first of them. -/
def digits : List Char := "0123456789ABCDEF".toList

/-- The value of a digit of a base: its place in `digits`, whichever case it is written in (R7, log 14). -/
def digitValue (base : Nat) (c : Char) : Option Nat := (digits.take base).idxOf? c.toUpper

/-- The number that one digit or more of a base spell, the most significant first (R7). -/
def numeral (base : Nat) (cs : List Char) : Option Nat :=
  if cs = [] then none
  else (allSome (cs.map (digitValue base))).map (List.foldl (fun n d => n * base + d) 0)

/-- `<value>`: a 32-bit number, hexadecimal with prefix `0x`, or decimal (R75). -/
def value? (cs : List Char) : Option Word :=
  let n? := match cs with
    | '0' :: 'x' :: ds => numeral 16 ds
    | _ => numeral 10 cs
  match n? with
  | some n => if n < 2 ^ 32 then some (BitVec.ofNat 32 n) else none
  | none => none

/-- A frame byte: two hexadecimal digits (R7). -/
def byte? : List Char → Option Byte
  | [c, d] => (numeral 16 [c, d]).map (BitVec.ofNat 8 ·)
  | [] | [_] | _ :: _ :: _ :: _ => none

/-- `<reg>`: a name of the map, or `FRAME[k]` (R75). -/
def reg? (cs : List Char) : Option Reg :=
  match regNames.lookup (String.ofList cs) with
  | some r => some r
  | none =>
    match cs with
    | 'F' :: 'R' :: 'A' :: 'M' :: 'E' :: '[' :: ds =>
      if ds.getLast? = some ']' then (numeral 10 ds.dropLast).map Reg.frame else none
    | _ => none

/-- The words of a line (log 14): `;` starts a comment, blanks separate, a comma is a word of its own. `acc` holds the
word being read, last character first. -/
def wordsFrom : List Char → List Char → List (List Char)
  | acc, [] => if acc.isEmpty then [] else [acc.reverse]
  | acc, c :: cs =>
    let before := if acc.isEmpty then [] else [acc.reverse]
    if c = ';' then before
    else if c = ' ' ∨ c = '\t' then before ++ wordsFrom [] cs
    else if c = ',' then before ++ [','] :: wordsFrom [] cs
    else wordsFrom (c :: acc) cs

/-- The line of a program that words spell (R75, R76). -/
def lineOfWords : List (List Char) → Option HostLine
  | [] => none
  | name :: rest =>
    match commandNames.lookup (String.ofList name), rest with
    | some i, [] => some (.command i)
    | some _, _ :: _ => none
    | none, _ =>
      if name = ['W', 'R'] then
        match rest with
        | [r, [','], v] =>
          match reg? r, value? v with
          | some r, some v => some (.wr r v)
          | _, _ => none
        | _ => none
      else if name = ['R', 'D'] then
        match rest with
        | [r] => (reg? r).map HostLine.rd
        | _ => none
      else if name = ['S', 'E', 'T', 'G', 'A', 'T', 'E'] then
        match rest with
        | [g] => (numeral 10 g).map HostLine.setGate
        | _ => none
      else if name = ['L', 'O', 'A', 'D', 'F', 'R', 'A', 'M', 'E'] then
        (allSome (rest.map byte?)).map HostLine.loadFrame
      else none

/-- The lines of a program text, one string a line; a line of blanks and comment only stands for nothing (R75). -/
def parseProgram : List String → Option (List HostLine)
  | [] => some []
  | l :: ls =>
    match wordsFrom [] l.toList with
    | [] => parseProgram ls
    | w :: ws =>
      match lineOfWords (w :: ws), parseProgram ls with
      | some x, some xs => some (x :: xs)
      | _, _ => none

/-- `s` with a host that next makes the given accesses (log 4). -/
def Machine.State.withAccesses (s : Machine.State) (as : List Access) : Machine.State :=
  { s with pending := as.map HostEvent.access ++ s.pending }

end Sys2Proof
end

