-- ==== Sys2Proof/Safety.lean ====
section
/-! DEFINITION. What a good state of the FCD is: the rules of `spec/` that every reachable state obeys. -/

namespace Sys2Proof.Machine

/-- The bank of a multimeter decode is made of one exponent byte (R121, R122): its unit and its exponent are that
byte's. At reset all three are 0, which is that byte's too. -/
def DmmBank.consistent (b : DmmBank) : Prop :=
  b.unit = highNibble b.expb ∧ b.exp = BitVec.ofInt 32 (dmmExponent b.expb)

/-- The invariant of the FCD. -/
structure State.Inv (s : State) : Prop where
  /-- the frame buffer is in canonical form -/
  frame_wf : Memory.wf s.frame = true
  /-- "LEN therefore never exceeds `FRAME_CAP`" (R26) -/
  len_le : s.len ≤ Config.frameCap
  /-- ERR codes 5 to 15 are never written (R171, I4) -/
  err_le : s.status.err.toNat ≤ 4
  /-- CHK is `(256 - SUM) mod 256` (R27) -/
  csum_chk : s.csum.chk = checksumOf s.csum.sum.toNat
  /-- the DMM bank comes from one exponent byte (R28) -/
  dmm_ok : s.dmm.consistent
  /-- LD_LEN is a length that DEC_LOAD accepted, or its reset value (R29, R35, R141) -/
  ld_len : s.load.len = 0 ∨ loadMinLen ≤ s.load.len.toNat ∧ s.load.len.toNat ≤ Config.frameCap
  /-- a valid LOAD bank holds an accepted length (R25, R141) -/
  ld_valid : s.status.ldValid = true → s.load.len ≠ 0

/-- The frame every command works on, `frame[0..LEN-1]` (R30), as the source's byte sequence. -/
def State.frameBytes (s : State) : List Byte := (List.range s.frameLen.toNat).map s.frameByte

/-- The byte sum of a frame modulo 256, as the frame invariant has it (R100). -/
def modSum (bytes : List Byte) : Nat := (bytes.map BitVec.toNat).sum % 256

/-- The machine answers with a next state. -/
def Completes (o : Host.Outcome State Fault Refusal) : Prop := ∃ t, o = .next t

/-- Two states whose architectural state (R20) reads the same: every register, and every frame byte. -/
structure State.SameBlock (s t : State) : Prop where
  ctrl : t.ctrl = s.ctrl
  status : t.status = s.status
  frameLen : t.frameLen = s.frameLen
  csum : t.csum = s.csum
  dmm : t.dmm = s.dmm
  load : t.load = s.load
  frame : ∀ i, t.frameByte i = s.frameByte i

end Sys2Proof.Machine
end

