-- ==== Sys2Proof/Certificates/Slice0/Obligations.lean ====
section
/-! DEFINITION. The statements for the provers, from the numbered rules of `spec/`. `modSum s.frameBytes` is the byte sum modulo 256 of `frame[0..LEN-1]`, as R100 and R30 have them. -/

open Sys2Proof Sys2Proof.Machine

/-! ## Encoding -/

/-- R72, the opcode map: each row's word decodes to its command and is that command's word, by the host's numbering too. -/
def Obligations.OpcodeMapRowsDecode : Prop :=
  (decodeWord 0x00000001#32 = .ok .verify ∧ encode .verify = 0x00000001#32 ∧ decodeTableWord 32 1 = some .verify) ∧
  (decodeWord 0x00000002#32 = .ok .gen ∧ encode .gen = 0x00000002#32 ∧ decodeTableWord 32 2 = some .gen) ∧
  (decodeWord 0x00000003#32 = .ok .decDmm ∧ encode .decDmm = 0x00000003#32 ∧ decodeTableWord 32 3 = some .decDmm) ∧
  (decodeWord 0x00000004#32 = .ok .decLoad ∧ encode .decLoad = 0x00000004#32 ∧ decodeTableWord 32 4 = some .decLoad)

/-- R74: every one of the 2^32 words is one of the four commands or illegal, and an illegal one has R73's behaviour. -/
def Obligations.EveryWordIsOneCommandOrIllegal : Prop :=
  ∀ w : Word,
    (∃ i : Instr, w = encode i ∧ decodeWord w = .ok i ∧ (∀ j, w = encode j → j = i) ∧ ∀ s, cmdWrite w s = exec i s) ∨
    ((∀ i : Instr, w ≠ encode i ∧ decodeWord w ≠ .ok i) ∧
      ∀ s : State, cmdWrite w s = .next { s with status := { s.status with err := 3 } })

/-- R70 to R72 for bytes: decoding and encoding agree in both directions, on any four bytes and whatever follows. The byte
order is the model's choice (log 10). -/
def Obligations.DecodeAndEncodeAgree : Prop :=
  ∀ (b0 b1 b2 b3 : Byte) (rest tail : List Byte) (i : Instr),
    decode (b0 :: b1 :: b2 :: b3 :: rest) = .ok (i, tail) ↔
      i.wf = true ∧ tail = rest ∧ bytesOfWord (encode i) = [b0, b1, b2, b3]

/-! ## The step -/

/-- A step in which the host writes a command's word to CMD is that command's meaning, the host's event taken and the
write answered (R24, R58). -/
def Obligations.StepRunsTheCommandWritten : Prop :=
  ∀ (s : State) (w : Word) (i : Instr) (rest : List HostEvent),
    s.pending = .access (.write 0x04 4 w) :: rest → decodeWord w = .ok i →
    step s = exec i { s with pending := rest, response := some { busError := false, data := none } }

/-- The instruction that `withFetchWord` places is the one the next step runs (log 4). -/
def Obligations.PlacedCommandRunsNext : Prop :=
  ∀ (s : State) (i : Instr),
    step (s.withFetchWord 32 (encode i).toNat) = exec i { s with response := some { busError := false, data := none } }

/-- R73: a CMD word with OP outside 1 to 4 or RSVD not 0 sets ERR to 3 and changes nothing else; the access completes
normally. -/
def Obligations.IllegalCommandSetsErrOnly : Prop :=
  ∀ (s : State) (w : Word) (rest : List HostEvent),
    s.pending = .access (.write 0x04 4 w) :: rest →
    (w.toNat % 16 = 0 ∨ 5 ≤ w.toNat % 16 ∨ w.toNat / 16 ≠ 0) →
    step s = .next { s with status := { s.status with err := 3 }, pending := rest,
                            response := some { busError := false, data := none } }

/-- R196, R60: every step completes, and takes exactly the host's oldest event. -/
def Obligations.EveryStepCompletes : Prop :=
  ∀ s : State, ∃ t, step s = .next t ∧ t.pending = s.pending.tail

/-- R16, R191: with no access and no reset the block does nothing. The stutter is the model's choice (log 5). -/
def Obligations.BlockNeverActsAlone : Prop :=
  ∀ s : State, s.pending = [] → step s = .next s

/-! ## Checksum commands -/

/-- R101, VERIFY: SUM, CHK, CSUM_OK and ERR are written, and nothing else changes, whatever LEN and the bytes are. -/
def Obligations.VerifyWritesSumAndResult : Prop :=
  ∀ s : State,
    exec .verify s = .next { s with
      csum := { sum := BitVec.ofNat 8 (modSum s.frameBytes), chk := BitVec.ofNat 8 ((256 - modSum s.frameBytes) % 256) },
      status := { s.status with err := 0, csumOk := decide (modSum s.frameBytes = 0) } }

/-- R102, GEN: with room it appends the checksum byte at `frame[LEN]`, and with a full buffer it reports FRAME_FULL and
changes nothing else. -/
def Obligations.GenAppendsOrReportsFull : Prop :=
  ∀ s : State,
    (s.frameLen.toNat < 32 → ∃ t, exec .gen s = .next t ∧
      t.frameByte s.frameLen.toNat = BitVec.ofNat 8 ((256 - modSum s.frameBytes) % 256) ∧
      (∀ i, i ≠ s.frameLen.toNat → t.frameByte i = s.frameByte i) ∧
      t.frameLen.toNat = s.frameLen.toNat + 1 ∧
      t.csum.sum = BitVec.ofNat 8 (modSum s.frameBytes) ∧
      t.csum.chk = BitVec.ofNat 8 ((256 - modSum s.frameBytes) % 256) ∧
      t.status = { s.status with err := 0 } ∧
      t.ctrl = s.ctrl ∧ t.dmm = s.dmm ∧ t.load = s.load ∧
      t.resets = s.resets ∧ t.pending = s.pending ∧ t.response = s.response) ∧
    (s.frameLen.toNat = 32 → exec .gen s = .next { s with status := { s.status with err := 4 } })

/-- R100: the checksum byte of a payload makes the whole frame's sum 0 mod 256, and is 0 for a payload sum of 0. -/
def Obligations.ChecksumByteMakesSumZero : Prop :=
  ∀ payload : List Byte,
    (checksumOf (modSum payload)).toNat = (256 - (payload.map BitVec.toNat).sum % 256) % 256 ∧
    modSum (payload ++ [checksumOf (modSum payload)]) = 0 ∧
    (modSum payload = 0 → checksumOf (modSum payload) = 0) ∧
    ∀ c : Byte, modSum (payload ++ [c]) = 0 → c = checksumOf (modSum payload)

/-- R104: GEN then VERIFY, with no host access between them, ends with CSUM_OK = 1 and ERR = 0. -/
def Obligations.GenThenVerifySucceeds : Prop :=
  ∀ s : State, s.frameLen.toNat < 32 →
    ∃ t u, exec .gen s = .next t ∧ exec .verify t = .next u ∧ u.status.csumOk = true ∧ u.status.err = 0

/-- R105: changing one byte of a frame that verifies is detected; two changes that cancel mod 256, and any reordering of
the frame's bytes, are not. -/
def Obligations.SingleByteCorruptionDetected : Prop :=
  ∀ s s' : State, exec .verify s = .next s' → s'.status.csumOk = true →
    (∀ i v, i < s.frameLen.toNat → v ≠ s.frameByte i →
      ∃ t, exec .verify (s.setFrameByte i v) = .next t ∧ t.status.csumOk = false) ∧
    (∀ i j v w, i < s.frameLen.toNat → j < s.frameLen.toNat → i ≠ j → v + w = s.frameByte i + s.frameByte j →
      ∃ t, exec .verify ((s.setFrameByte i v).setFrameByte j w) = .next t ∧ t.status.csumOk = true) ∧
    (∀ r : State, r.frameBytes.Perm s.frameBytes →
      ∃ t, exec .verify r = .next t ∧ t.status.csumOk = true)

/-! ## The decoders -/

/-- R121, DEC_DMM, all three outcomes: too short, gate mismatch, decoded. -/
def Obligations.DecDmmFollowsItsRule : Prop :=
  ∀ s : State,
    (s.frameLen.toNat < 17 →
      exec .decDmm s = .next { s with status := { s.status with err := 1, dmmValid := false } }) ∧
    (17 ≤ s.frameLen.toNat → s.ctrl.gateEn = true → modSum s.frameBytes ≠ 0 →
      exec .decDmm s = .next { s with status := { s.status with err := 2, dmmValid := false } }) ∧
    (17 ≤ s.frameLen.toNat → (s.ctrl.gateEn = false ∨ modSum s.frameBytes = 0) →
      exec .decDmm s = .next { s with
        dmm := {
          expb := s.frameByte 9
          unit := BitVec.ofNat 4 ((s.frameByte 9).toNat / 16)
          exp := BitVec.ofInt 32 (3 * ((s.frameByte 9).toNat / 16 : Nat) - ((s.frameByte 9).toNat % 16 / 2 : Nat))
          mant := BitVec.ofNat 16 ((s.frameByte 14).toNat + 256 * (s.frameByte 15).toNat)
          raw1 := BitVec.ofNat 16 ((s.frameByte 10).toNat + 256 * (s.frameByte 11).toNat)
          raw2 := BitVec.ofNat 16 ((s.frameByte 12).toNat + 256 * (s.frameByte 13).toNat) },
        status := { s.status with err := 0, dmmValid := true } })

/-- R141, DEC_LOAD, all three outcomes: too short, gate mismatch, decoded. -/
def Obligations.DecLoadFollowsItsRule : Prop :=
  ∀ s : State,
    (s.frameLen.toNat < 27 →
      exec .decLoad s = .next { s with status := { s.status with err := 1, ldValid := false } }) ∧
    (27 ≤ s.frameLen.toNat → s.ctrl.gateEn = true → modSum s.frameBytes ≠ 0 →
      exec .decLoad s = .next { s with status := { s.status with err := 2, ldValid := false } }) ∧
    (27 ≤ s.frameLen.toNat → (s.ctrl.gateEn = false ∨ modSum s.frameBytes = 0) →
      exec .decLoad s = .next { s with
        load := {
          len := s.frameLen
          unk1 := s.frameByte 4
          mode := BitVec.ofNat 4 ((s.frameByte 5).toNat % 16)
          fan := BitVec.ofNat 4 ((s.frameByte 5).toNat / 16)
          runflag := s.frameByte 6
          volt := s.frameByte 10 ++ s.frameByte 9 ++ s.frameByte 8 ++ s.frameByte 7
          curr := s.frameByte 14 ++ s.frameByte 13 ++ s.frameByte 12 ++ s.frameByte 11
          runt := s.frameByte 18 ++ s.frameByte 17 ++ s.frameByte 16 ++ s.frameByte 15
          temp := s.frameByte 22 ++ s.frameByte 21 ++ s.frameByte 20 ++ s.frameByte 19
          setp := s.frameByte 26 ++ s.frameByte 25 ++ s.frameByte 24 ++ s.frameByte 23 },
        status := { s.status with err := 0, ldValid := true } })

/-- R103, the gate: past their length check the decoders report CHECKSUM_MISMATCH exactly where the gate is on and the
sum over the whole frame is not 0, and they write neither CSUM nor CSUM_OK. -/
def Obligations.GateRejectsFramesThatDoNotSumToZero : Prop :=
  ∀ s : State,
    (17 ≤ s.frameLen.toNat → ∃ t, exec .decDmm s = .next t ∧ t.csum = s.csum ∧ t.status.csumOk = s.status.csumOk ∧
      (t.status.err = 2 ↔ s.ctrl.gateEn = true ∧ modSum s.frameBytes ≠ 0) ∧ (t.status.err ≠ 2 → t.status.err = 0)) ∧
    (27 ≤ s.frameLen.toNat → ∃ t, exec .decLoad s = .next t ∧ t.csum = s.csum ∧ t.status.csumOk = s.status.csumOk ∧
      (t.status.err = 2 ↔ s.ctrl.gateEn = true ∧ modSum s.frameBytes ≠ 0) ∧ (t.status.err ≠ 2 → t.status.err = 0))

/-- R122: for each of the 256 exponent bytes, the exponent is `3*e[7:4] - e[3:1]`, the unit is the high nibble, the
exponent lies in -7..45 with both ends reached, and `e[0]` changes neither. -/
def Obligations.ExponentByteDecodes : Prop :=
  (∀ s t : State, exec .decDmm s = .next t → t.status.err = 0 →
    t.dmm.expb = s.frameByte 9 ∧
    t.dmm.unit = (s.frameByte 9).extractLsb' 4 4 ∧
    t.dmm.exp.toInt = 3 * (((s.frameByte 9).extractLsb' 4 4).toNat : Int) - (((s.frameByte 9).extractLsb' 1 3).toNat : Int) ∧
    -7 ≤ t.dmm.exp.toInt ∧ t.dmm.exp.toInt ≤ 45) ∧
  dmmExponent 0x0F = -7 ∧ dmmExponent 0xF0 = 45 ∧ dmmExponent 0xF1 = 45 ∧
  ∀ e e' : Byte, e.extractLsb' 1 7 = e'.extractLsb' 1 7 →
    dmmExponent e = dmmExponent e' ∧ highNibble e = highNibble e'

/-- R125: while DMM_VALID is 1 the value is the exact rational `mantissa * 10^exponent`, and after a decode it is 0 or
from 10^-7 to 65535 * 10^45. -/
def Obligations.MultimeterValueIsExact : Prop :=
  (∀ s : State, s.status.dmmValid = true →
    s.dmmValue? = some ((s.dmm.mant.toNat : ℚ) * (10 : ℚ) ^ s.dmm.exp.toInt)) ∧
  (∀ s t : State, exec .decDmm s = .next t → t.status.err = 0 →
    ∃ v, t.dmmValue? = some v ∧
      (t.dmm.mant = 0 → v = 0) ∧
      (t.dmm.mant ≠ 0 → (10 : ℚ) ^ (-7 : ℤ) ≤ v ∧ v ≤ 65535 * (10 : ℚ) ^ (45 : ℤ)))

/-- R13: `dval(m, e)` is the exact rational `m * 10^e`. -/
def Obligations.DecimalValueIsMantissaTimesPowerOfTen : Prop :=
  ∀ m e : Int, dval m e = (m : ℚ) * (10 : ℚ) ^ e

/-- R12: what each class of binary32 word denotes. -/
def Obligations.Binary32WordsDenoteTheirValues : Prop :=
  ∀ w : Word,
    let neg := w.getLsbD 31
    let e : ℕ := w.toNat / 2 ^ 23 % 256
    let f : ℕ := w.toNat % 2 ^ 23
    let sign : ℚ := if neg then -1 else 1
    (e = 0 → f32val w = .finite neg (sign * f * (2 : ℚ) ^ (-149 : ℤ))) ∧
    (1 ≤ e → e ≤ 254 → f32val w = .finite neg (sign * (2 ^ 23 + f) * (2 : ℚ) ^ ((e : ℤ) - 150))) ∧
    (e = 255 → f = 0 → f32val w = .infinity neg) ∧
    (e = 255 → f ≠ 0 → f32val w = .nan)

/-- R144, R146: a binary32 word encoded little-endian into the frame at offset 7, 11, 19 or 23 is recovered bit for bit,
every one of the 2^32 words. -/
def Obligations.FloatWordsRoundTrip : Prop :=
  ∀ (s : State) (w : Word),
    27 ≤ s.frameLen.toNat → (s.ctrl.gateEn = false ∨ modSum s.frameBytes = 0) →
    ∃ t, exec .decLoad s = .next t ∧ t.status.ldValid = true ∧
      ((∀ k, k < 4 → s.frameByte (7 + k) = byteOfWord w k) → t.load.volt = w) ∧
      ((∀ k, k < 4 → s.frameByte (11 + k) = byteOfWord w k) → t.load.curr = w) ∧
      ((∀ k, k < 4 → s.frameByte (19 + k) = byteOfWord w k) → t.load.temp = w) ∧
      ((∀ k, k < 4 → s.frameByte (23 + k) = byteOfWord w k) → t.load.setp = w)

/-- R145: LD_RUNT holds the word of bytes 15 to 18, and its value is that word's two's-complement reading. -/
def Obligations.RunTimeIsSignedLittleEndian : Prop :=
  ∀ s t : State, exec .decLoad s = .next t → t.status.err = 0 →
    t.load.runt.toNat = (s.frameByte 15).toNat + 2 ^ 8 * (s.frameByte 16).toNat
      + 2 ^ 16 * (s.frameByte 17).toNat + 2 ^ 24 * (s.frameByte 18).toNat ∧
    s32 t.load.runt = t.load.runt.toInt ∧
    (s32 t.load.runt < 0 ↔ 128 ≤ (s.frameByte 18).toNat) ∧
    -2 ^ 31 ≤ s32 t.load.runt ∧ s32 t.load.runt ≤ 2 ^ 31 - 1

/-- R11: the frame helper functions are their formulas, with no overflow. -/
def Obligations.FrameHelpersAreTheirFormulas : Prop :=
  ∀ (s : State) (i n : Nat),
    s.sum8 0 = 0 ∧
    s.sum8 n = ((List.range n).map fun j => (s.frameByte j).toNat).sum % 256 ∧
    (s.le16 i).toNat = (s.frameByte i).toNat + 256 * (s.frameByte (i + 1)).toNat ∧
    (s.le32 i).toNat = (s.frameByte i).toNat + 2 ^ 8 * (s.frameByte (i + 1)).toNat
      + 2 ^ 16 * (s.frameByte (i + 2)).toNat + 2 ^ 24 * (s.frameByte (i + 3)).toNat

/-- R129: two frames that agree on bytes 9 to 15, on whether they are long enough and on whether the gate passes, decode
alike. -/
def Obligations.DecDmmIgnoresUnreadBytes : Prop :=
  ∀ s s' : State, s'.ctrl = s.ctrl → s'.dmm = s.dmm → (s'.frameLen.toNat < 17 ↔ s.frameLen.toNat < 17) →
    (∀ i, 9 ≤ i → i ≤ 15 → s'.frameByte i = s.frameByte i) →
    (s.ctrl.gateEn = false ∨ (modSum s'.frameBytes = 0 ↔ modSum s.frameBytes = 0)) →
    ∃ t t', exec .decDmm s = .next t ∧ exec .decDmm s' = .next t' ∧
      t'.dmm = t.dmm ∧ t'.status.err = t.status.err ∧ t'.status.dmmValid = t.status.dmmValid

/-- R148: two frames that agree on bytes 4 to 26, on whether they are long enough and on whether the gate passes, decode
alike, and LD_LEN follows each one's length. -/
def Obligations.DecLoadIgnoresUnreadBytes : Prop :=
  ∀ s s' : State, s'.ctrl = s.ctrl → s'.load = s.load → (s'.frameLen.toNat < 27 ↔ s.frameLen.toNat < 27) →
    (∀ i, 4 ≤ i → i ≤ 26 → s'.frameByte i = s.frameByte i) →
    (s.ctrl.gateEn = false ∨ (modSum s'.frameBytes = 0 ↔ modSum s.frameBytes = 0)) →
    ∃ t t', exec .decLoad s = .next t ∧ exec .decLoad s' = .next t' ∧
      t'.load = { t.load with len := t'.load.len } ∧ t'.status.err = t.status.err ∧
      t'.status.ldValid = t.status.ldValid ∧
      (t.status.err = 0 → t.load.len = s.frameLen ∧ t'.load.len = s'.frameLen)

/-- R30: bytes at indices `>= LEN` are read by no command, so two states that differ in those bytes only are left
differing in nothing else (an unwritten byte's unspecified value included, I1). -/
def Obligations.BytesBeyondLenReachNoResult : Prop :=
  ∀ (i : Instr) (s s' : State),
    s'.ctrl = s.ctrl → s'.status = s.status → s'.frameLen = s.frameLen → s'.csum = s.csum →
    s'.dmm = s.dmm → s'.load = s.load → (∀ j, j < s.frameLen.toNat → s'.frameByte j = s.frameByte j) →
    ∃ t t', exec i s = .next t ∧ exec i s' = .next t' ∧
      t'.ctrl = t.ctrl ∧ t'.status = t.status ∧ t'.frameLen = t.frameLen ∧ t'.csum = t.csum ∧
      t'.dmm = t.dmm ∧ t'.load = t.load ∧
      (s.frameLen.toNat ≤ 32 → ∀ j, j < t.frameLen.toNat → t'.frameByte j = t.frameByte j)

/-- R33, R176: no command reads a STATUS field, so it runs after an error exactly as after a success: whatever STATUS
held, it leaves the same state but for the STATUS fields it does not write, and the same ERR. -/
def Obligations.NoCommandReadsStatus : Prop :=
  ∀ (i : Instr) (s : State) (st : Status), ∃ t t',
    exec i s = .next t ∧ exec i { s with status := st } = .next t' ∧
      t' = { t with status := t'.status } ∧ t'.status.err = t.status.err ∧
      (i = .verify → t'.status.csumOk = t.status.csumOk) ∧ (i ≠ .verify → t'.status.csumOk = st.csumOk) ∧
      (i = .decDmm → t'.status.dmmValid = t.status.dmmValid) ∧ (i ≠ .decDmm → t'.status.dmmValid = st.dmmValid) ∧
      (i = .decLoad → t'.status.ldValid = t.status.ldValid) ∧ (i ≠ .decLoad → t'.status.ldValid = st.ldValid)

/-! ## Errors -/

/-- R171, R173: the code every CMD write leaves in ERR, the checks in their order. -/
def Obligations.EveryCommandReportsItsFirstFailedCheck : Prop :=
  ∀ (s : State) (w : Word) (rest : List HostEvent),
    s.pending = .access (.write 0x04 4 w) :: rest →
    ∃ t, step s = .next t ∧ t.status.err =
      if w.toNat = 1 then 0
      else if w.toNat = 2 then (if s.frameLen.toNat = 32 then 4 else 0)
      else if w.toNat = 3 then
        (if s.frameLen.toNat < 17 then 1
         else if s.ctrl.gateEn = true ∧ modSum s.frameBytes ≠ 0 then 2 else 0)
      else if w.toNat = 4 then
        (if s.frameLen.toNat < 27 then 1
         else if s.ctrl.gateEn = true ∧ modSum s.frameBytes ≠ 0 then 2 else 0)
      else 3

/-- R172: what an error changes: ERR, and for a decoder its own VALID bit, which becomes 0. -/
def Obligations.ErrorsRecordOnlyTheirCode : Prop :=
  (∀ s t : State, exec .decDmm s = .next t → t.status.err ≠ 0 →
    t = { s with status := { s.status with err := t.status.err, dmmValid := false } }) ∧
  (∀ s t : State, exec .decLoad s = .next t → t.status.err ≠ 0 →
    t = { s with status := { s.status with err := t.status.err, ldValid := false } }) ∧
  (∀ s t : State, exec .gen s = .next t → t.status.err ≠ 0 →
    t = { s with status := { s.status with err := t.status.err } }) ∧
  (∀ (s t : State) (w : Word), (∀ i, w ≠ encode i) → cmdWrite w s = .next t →
    t = { s with status := { s.status with err := t.status.err } })

/-- R25: a VALID bit is 1 after its decoder exactly where that decoder left ERR 0, and CSUM_OK is 1 after VERIFY exactly
where the frame's sum is 0. -/
def Obligations.ValidBitsTellSuccess : Prop :=
  (∀ s : State, ∃ t, exec .decDmm s = .next t ∧ (t.status.dmmValid = true ↔ t.status.err = 0)) ∧
  (∀ s : State, ∃ t, exec .decLoad s = .next t ∧ (t.status.ldValid = true ↔ t.status.err = 0)) ∧
  (∀ s : State, ∃ t, exec .verify s = .next t ∧ (t.status.csumOk = true ↔ modSum s.frameBytes = 0))

/-! ## Frames -/

/-- What VERIFY, DEC_DMM and DEC_LOAD leave unchanged: every byte of the frame buffer, and everything but the registers
each writes. -/
def Obligations.CheckAndDecodeCommandsFrame : Prop :=
  (∀ s t : State, exec .verify s = .next t →
    t.ctrl = s.ctrl ∧ t.status.dmmValid = s.status.dmmValid ∧ t.status.ldValid = s.status.ldValid ∧
    t.frameLen = s.frameLen ∧ t.dmm = s.dmm ∧ t.load = s.load ∧ (∀ i, t.frameByte i = s.frameByte i) ∧
    t.resets = s.resets ∧ t.pending = s.pending ∧ t.response = s.response) ∧
  (∀ s t : State, exec .decDmm s = .next t →
    t.ctrl = s.ctrl ∧ t.status.csumOk = s.status.csumOk ∧ t.status.ldValid = s.status.ldValid ∧
    t.frameLen = s.frameLen ∧ t.csum = s.csum ∧ t.load = s.load ∧ (∀ i, t.frameByte i = s.frameByte i) ∧
    t.resets = s.resets ∧ t.pending = s.pending ∧ t.response = s.response) ∧
  (∀ s t : State, exec .decLoad s = .next t →
    t.ctrl = s.ctrl ∧ t.status.csumOk = s.status.csumOk ∧ t.status.dmmValid = s.status.dmmValid ∧
    t.frameLen = s.frameLen ∧ t.csum = s.csum ∧ t.dmm = s.dmm ∧ (∀ i, t.frameByte i = s.frameByte i) ∧
    t.resets = s.resets ∧ t.pending = s.pending ∧ t.response = s.response)

/-- What GEN leaves unchanged: everything but ERR, CSUM, FRAME_LEN and the byte at `frame[LEN]`. -/
def Obligations.GenFrame : Prop :=
  ∀ s t : State, exec .gen s = .next t →
    t.ctrl = s.ctrl ∧ t.status.csumOk = s.status.csumOk ∧ t.status.dmmValid = s.status.dmmValid ∧
    t.status.ldValid = s.status.ldValid ∧ t.dmm = s.dmm ∧ t.load = s.load ∧
    (∀ a, a = s.len → ∀ i, i ≠ a → t.frameByte i = s.frameByte i) ∧
    (s.frameLen.toNat = 32 → ∀ i, t.frameByte i = s.frameByte i) ∧
    t.resets = s.resets ∧ t.pending = s.pending ∧ t.response = s.response

/-! ## The bus -/

/-- R52: an access of another width, at a misaligned offset or at an unmapped one is answered with a bus error, a read
with data 0 beside it, and changes no state of the block. -/
def Obligations.BadAccessIsABusErrorAndChangesNothing : Prop :=
  ∀ (s : State) (off : Offset) (width : Nat) (v : Word) (rest : List HostEvent),
    (width ≠ 4 ∨ off.toNat % 4 ≠ 0 ∨ (0x14 ≤ off.toNat ∧ off.toNat ≤ 0x1F) ∨ (0x38 ≤ off.toNat ∧ off.toNat ≤ 0x3F) ∨
      (0x68 ≤ off.toNat ∧ off.toNat ≤ 0x7F) ∨ 0xA0 ≤ off.toNat) →
    (s.pending = .access (.read off width) :: rest →
      step s = .next { s with pending := rest, response := some { busError := true, data := some 0 } }) ∧
    (s.pending = .access (.write off width v) :: rest →
      step s = .next { s with pending := rest, response := some { busError := true, data := none } })

/-- R53: a read returns the register's value, with reserved and unused bits 0, CMD as 0 and a window word packed, and has
no side effect. -/
def Obligations.ReadsReturnRegistersAndChangeNothing : Prop :=
  ∀ (s : State) (off : Offset) (rest : List HostEvent), s.pending = .access (.read off 4) :: rest →
    (∀ v : Nat, (off, v) ∈ ([
        (0x00, s.ctrl.gateEn.toNat), (0x04, 0),
        (0x08, s.status.err.toNat + 16 * s.status.csumOk.toNat + 32 * s.status.dmmValid.toNat + 64 * s.status.ldValid.toNat),
        (0x0C, s.frameLen.toNat), (0x10, s.csum.sum.toNat + 256 * s.csum.chk.toNat),
        (0x20, s.dmm.expb.toNat), (0x24, s.dmm.unit.toNat), (0x28, s.dmm.exp.toNat), (0x2C, s.dmm.mant.toNat),
        (0x30, s.dmm.raw1.toNat), (0x34, s.dmm.raw2.toNat),
        (0x40, s.load.len.toNat), (0x44, s.load.unk1.toNat), (0x48, s.load.mode.toNat), (0x4C, s.load.fan.toNat),
        (0x50, s.load.runflag.toNat), (0x54, s.load.volt.toNat), (0x58, s.load.curr.toNat), (0x5C, s.load.runt.toNat),
        (0x60, s.load.temp.toNat), (0x64, s.load.setp.toNat)] : List (Offset × Nat)) →
      step s = .next { s with pending := rest, response := some { busError := false, data := some (BitVec.ofNat 32 v) } }) ∧
    (∀ k : Nat, k < 8 → off.toNat = 0x80 + 4 * k →
      step s = .next { s with
        pending := rest,
        response := some { busError := false, data := some (BitVec.ofNat 32 ((s.frameByte (4 * k)).toNat
          + 2 ^ 8 * (s.frameByte (4 * k + 1)).toNat + 2 ^ 16 * (s.frameByte (4 * k + 2)).toNat
          + 2 ^ 24 * (s.frameByte (4 * k + 3)).toNat)) } })

/-- R54: what a write to each register does: CTRL takes bit 0, FRAME_LEN takes bits 7:0 where they are at most 32, CMD
executes the word, a window word R55, and a read-only register nothing. -/
def Obligations.WritesDoWhatTheMapSays : Prop :=
  ∀ (s : State) (off : Offset) (v : Word) (rest : List HostEvent), s.pending = .access (.write off 4 v) :: rest →
    let s' : State := { s with pending := rest, response := some { busError := false, data := none } }
    (off = 0x00 → step s = .next { s' with ctrl := { gateEn := decide (v.toNat % 2 = 1) } }) ∧
    (off = 0x04 → step s = cmdWrite v s') ∧
    (off = 0x0C → v.toNat % 256 ≤ 32 → step s = .next { s' with frameLen := BitVec.ofNat 8 (v.toNat % 256) }) ∧
    (off = 0x0C → 32 < v.toNat % 256 → step s = .next s') ∧
    (∀ k, k < 8 → off.toNat = 0x80 + 4 * k → ∃ t, step s = .next t ∧ s'.ctrl = t.ctrl ∧ s'.status = t.status ∧
      s'.frameLen = t.frameLen ∧ s'.csum = t.csum ∧ s'.dmm = t.dmm ∧ s'.load = t.load ∧ s'.pending = t.pending ∧
      s'.response = t.response ∧ ∀ j, t.frameByte j =
        if 4 * k ≤ j ∧ j < 4 * k + 4 then BitVec.ofNat 8 (v.toNat / 2 ^ (8 * (j - 4 * k)) % 256) else s.frameByte j) ∧
    (off ∈ ([0x08, 0x10, 0x20, 0x24, 0x28, 0x2C, 0x30, 0x34, 0x40, 0x44, 0x48, 0x4C, 0x50, 0x54, 0x58, 0x5C, 0x60, 0x64]
        : List Offset) → step s = .next s')

/-- R55: a frame window write sets `frame[4k+i] <- v[8i+7:8i]` for `i` = 0 to 3 and changes nothing else. -/
def Obligations.FrameWindowWriteSetsFourBytes : Prop :=
  ∀ (s : State) (k : Nat) (v : Word) (rest : List HostEvent), k < 8 →
    s.pending = .access (.write (BitVec.ofNat 8 (0x80 + 4 * k)) 4 v) :: rest →
    ∃ t, step s = .next t ∧
      (∀ i, i < 4 → t.frameByte (4 * k + i) = v.extractLsb' (8 * i) 8) ∧
      (∀ j, j < 4 * k ∨ 4 * k + 4 ≤ j → t.frameByte j = s.frameByte j) ∧
      t.ctrl = s.ctrl ∧ t.status = s.status ∧ t.frameLen = s.frameLen ∧ t.csum = s.csum ∧ t.dmm = s.dmm ∧
      t.load = s.load ∧ t.resets = s.resets ∧ t.pending = rest ∧
      t.response = some { busError := false, data := none }

/-- R55, R56: a word written to the frame window reads back, whatever LEN is. -/
def Obligations.FrameWindowWriteThenReadReturnsTheWord : Prop :=
  ∀ (s : State) (k : Nat) (v : Word) (rest : List HostEvent), k < 8 →
    s.pending = .access (.write (BitVec.ofNat 8 (0x80 + 4 * k)) 4 v)
      :: .access (.read (BitVec.ofNat 8 (0x80 + 4 * k)) 4) :: rest →
    ∃ t u, step s = .next t ∧ step t = .next u ∧ u.response = some { busError := false, data := some v } ∧
      u.pending = rest

/-- R59: every access but a GEN is idempotent: made twice it leaves the block, and answers, as when made once. Two GENs
append two bytes. -/
def Obligations.AccessesButGenAreIdempotent : Prop :=
  (∀ (a : Access) (s t : State), a ≠ .write 0x04 4 0x00000002 → access a s = .next t →
    ∃ u, access a t = .next u ∧ t.SameBlock u ∧ u.response = t.response) ∧
  (∀ s : State, s.frameLen.toNat + 2 ≤ 32 → ∃ t u, access (.write 0x04 4 0x00000002) s = .next t ∧
    access (.write 0x04 4 0x00000002) t = .next u ∧ u.frameLen.toNat = s.frameLen.toNat + 2)

/-! ## Reset -/

/-- R35: the value of every register after reset; of the frame bytes nothing is known. -/
def Obligations.ResetStateHasTheTabledValues : Prop :=
  State.reset.ctrl.gateEn = true ∧ State.reset.ctrl.word = 1 ∧ State.reset.status.err = 0 ∧
  State.reset.status.csumOk = false ∧ State.reset.status.dmmValid = false ∧ State.reset.status.ldValid = false ∧
  State.reset.status.word = 0 ∧
  State.reset.frameLen = 0 ∧ State.reset.csum.sum = 0 ∧ State.reset.csum.chk = 0 ∧
  State.reset.dmm.expb = 0 ∧ State.reset.dmm.unit = 0 ∧ State.reset.dmm.exp = 0 ∧ State.reset.dmm.mant = 0 ∧
  State.reset.dmm.raw1 = 0 ∧ State.reset.dmm.raw2 = 0 ∧
  State.reset.load.len = 0 ∧ State.reset.load.unk1 = 0 ∧ State.reset.load.mode = 0 ∧ State.reset.load.fan = 0 ∧
  State.reset.load.runflag = 0 ∧ State.reset.load.volt = 0 ∧ State.reset.load.curr = 0 ∧ State.reset.load.runt = 0 ∧
  State.reset.load.temp = 0 ∧ State.reset.load.setp = 0 ∧
  ∀ i, Memory.read? State.reset.frame i = none

/-- R190: the reset event puts every register into its reset value, whatever the state; the accesses it cuts are lost
and get no answer, and the host's later accesses are kept (the last by log 8). -/
def Obligations.ResetEventRestoresEveryRegister : Prop :=
  ∀ (s : State) (lost : List Access) (rest : List HostEvent), s.pending = .reset lost :: rest →
    ∃ t, step s = .next t ∧ t.ctrl = State.reset.ctrl ∧ t.status = State.reset.status ∧
      t.frameLen = State.reset.frameLen ∧ t.csum = State.reset.csum ∧ t.dmm = State.reset.dmm ∧
      t.load = State.reset.load ∧ (∀ i, t.frameByte i = Config.frameResetByte t.resets i) ∧
      t.resets ≠ s.resets ∧ t.pending = rest ∧ t.response = none

/-- R192: after a reset of any state CTRL reads 1, STATUS, FRAME_LEN, CSUM and every result register read 0, the frame
window reads unspecified words, VERIFY sets CSUM_OK, and the decoders fail with FRAME_TOO_SHORT. -/
def Obligations.StateAfterResetAsSeenByTheHost : Prop :=
  ∀ (s : State) (lost : List Access), ∃ t, perform (.reset lost) s = .next t ∧
    t.readReg .ctrl = 1 ∧
    (∀ r ∈ [Reg.status, .frameLen, .csum, .dmmExpb, .dmmUnit, .dmmExp, .dmmMant, .dmmRaw1, .dmmRaw2, .ldLen, .ldUnk1,
      .ldMode, .ldFan, .ldRunflag, .ldVolt, .ldCurr, .ldRunt, .ldTemp, .ldSetp], t.readReg r = 0) ∧
    (∀ k, t.readReg (.frame k) = Config.frameResetByte t.resets (4 * k + 3) ++ Config.frameResetByte t.resets (4 * k + 2)
      ++ Config.frameResetByte t.resets (4 * k + 1) ++ Config.frameResetByte t.resets (4 * k)) ∧
    (∃ u, exec .verify t = .next u ∧ u.status.csumOk = true ∧ u.status.word = 0x10) ∧
    (∃ u, exec .decDmm t = .next u ∧ u.status.word = 0x01) ∧
    (∃ u, exec .decLoad t = .next u ∧ u.status.word = 0x01)

/-! ## Whole-machine rules -/

/-- R33, R28, R29, R27: only VERIFY changes CSUM_OK, only DEC_DMM the DMM bank and DMM_VALID, only DEC_LOAD the LOAD bank
and LD_VALID, only VERIFY and GEN change CSUM, only a CMD write changes ERR, or else it is a reset. -/
def Obligations.FlagsAndBanksHaveOneWriter : Prop :=
  ∀ s t : State, step s = .next t → (∀ lost rest, s.pending ≠ .reset lost :: rest) →
    (t.status.csumOk ≠ s.status.csumOk → ∃ rest, s.pending = .access (.write 0x04 4 1) :: rest) ∧
    (t.csum ≠ s.csum → ∃ rest, s.pending = .access (.write 0x04 4 1) :: rest ∨
      s.pending = .access (.write 0x04 4 2) :: rest) ∧
    ((t.status.dmmValid ≠ s.status.dmmValid ∨ t.dmm ≠ s.dmm) → ∃ rest, s.pending = .access (.write 0x04 4 3) :: rest) ∧
    ((t.status.ldValid ≠ s.status.ldValid ∨ t.load ≠ s.load) → ∃ rest, s.pending = .access (.write 0x04 4 4) :: rest) ∧
    (t.status.err ≠ s.status.err → ∃ w rest, s.pending = .access (.write 0x04 4 w) :: rest)

/-- R23, R26, R30, R190: GATE_EN changes by a CTRL write only, LEN by a FRAME_LEN write or a GEN, a frame byte by a write
of its window word or by a GEN at LEN, or else it is a reset; an unwritten byte keeps its unspecified value (I1). -/
def Obligations.GateLenAndFrameChangeOnlyByTheirWriters : Prop :=
  ∀ s t : State, step s = .next t → (∀ lost rest, s.pending ≠ .reset lost :: rest) →
    (t.ctrl ≠ s.ctrl → ∃ v rest, s.pending = .access (.write 0x00 4 v) :: rest) ∧
    (t.frameLen ≠ s.frameLen → ∃ v rest, s.pending = .access (.write 0x0C 4 v) :: rest ∨
      s.pending = .access (.write 0x04 4 2) :: rest) ∧
    (∀ i, t.frameByte i ≠ s.frameByte i →
      (∃ v rest, s.pending = .access (.write (BitVec.ofNat 8 (0x80 + 4 * (i / 4))) 4 v) :: rest) ∨
      (i = s.frameLen.toNat ∧ ∃ rest, s.pending = .access (.write 0x04 4 2) :: rest))

/-- The invariant holds at reset. -/
def Obligations.ResetMeetsTheInvariant : Prop := State.Inv State.reset

/-- Every step keeps the invariant: the frame buffer's canonical form, LEN within the buffer (R26), ERR among its codes
(R171), CHK the complement of SUM (R27), the DMM bank made of one exponent byte (R28, R122), LD_LEN an accepted length
(R29, R141). -/
def Obligations.EveryStepKeepsTheInvariant : Prop :=
  ∀ s t : State, s.Inv → step s = .next t → t.Inv

/-- R196: from every good state, any number of steps completes, and in a good state, whatever the host sends. -/
def Obligations.RunsCompleteAndStayGood : Prop :=
  ∀ (n : Nat) (s : State), s.Inv → ∃ t, Host.Core.run Sys2Proof.core n s = .next t ∧ State.Inv t

/-- R28: in every good state DMM_EXP is an integer in -7..45 whose bits 31:6 are copies of the sign. -/
def Obligations.ExponentRegisterStaysInRange : Prop :=
  ∀ s : State, s.Inv → -7 ≤ s.dmm.exp.toInt ∧ s.dmm.exp.toInt ≤ 45 ∧
    ∀ i, 6 ≤ i → i ≤ 31 → s.dmm.exp.getLsbD i = s.dmm.exp.getLsbD 31

/-! ## Host programs -/

/-- R76, `LOADFRAME`: its accesses, run from any state, put the bytes into the frame buffer, pad the last word with 0,
set LEN to their number, and change nothing else; the assembler refuses more than 32 bytes. -/
def Obligations.LoadFrameLoadsTheFrame : Prop :=
  (∀ (bytes : List Byte) (s : State) (rest : List HostEvent), bytes.length ≤ 32 →
    s.pending = (HostLine.loadFrame bytes).expand.map .access ++ rest →
    ∃ t, Host.Core.run Sys2Proof.core ((bytes.length + 3) / 4 + 1) s = .next t ∧
      (∀ j, State.frameByte t j = if j < 4 * ((bytes.length + 3) / 4) then bytes.getD j 0 else s.frameByte j) ∧
      (State.frameLen t).toNat = bytes.length ∧ State.frameBytes t = bytes ∧
      State.ctrl t = s.ctrl ∧ State.status t = s.status ∧ State.csum t = s.csum ∧ State.dmm t = s.dmm ∧
      State.load t = s.load ∧ State.pending t = rest) ∧
  (∀ (bytes : List Byte) (ls : List HostLine), 32 < bytes.length → assemble (.loadFrame bytes :: ls) = none)

/-- R76: each command mnemonic is one CMD write, and `SETGATE g` one CTRL write; run from any state the latter sets the
gate. -/
def Obligations.PseudoInstructionsExpandAsTabled : Prop :=
  (HostLine.command .verify).expand = [.write 0x04 4 0x00000001] ∧
  (HostLine.command .gen).expand = [.write 0x04 4 0x00000002] ∧
  (HostLine.command .decDmm).expand = [.write 0x04 4 0x00000003] ∧
  (HostLine.command .decLoad).expand = [.write 0x04 4 0x00000004] ∧
  (∀ g, g ≤ 1 → (HostLine.setGate g).expand = [.write 0x00 4 (BitVec.ofNat 32 g)] ∧
    ∀ s : State, ∃ t, access (.write 0x00 4 (BitVec.ofNat 32 g)) s = .next t ∧ t.ctrl.gateEn = decide (g = 1))
end

