-- ==== Sys2Proof/Laws/State.lean ====
section
/-! SUPPORT. One lemma per field per update of State, true by rfl, so that no later proof unfolds a record update. -/

namespace Sys2Proof.Machine

variable (s : State)

section

variable (c : Nibble)

@[simp] theorem setErr_ctrl : (s.setErr c).ctrl = s.ctrl := rfl
@[simp] theorem setErr_status : (s.setErr c).status = { s.status with err := c } := rfl
@[simp] theorem setErr_frameLen : (s.setErr c).frameLen = s.frameLen := rfl
@[simp] theorem setErr_csum : (s.setErr c).csum = s.csum := rfl
@[simp] theorem setErr_dmm : (s.setErr c).dmm = s.dmm := rfl
@[simp] theorem setErr_load : (s.setErr c).load = s.load := rfl
@[simp] theorem setErr_frame : (s.setErr c).frame = s.frame := rfl
@[simp] theorem setErr_resets : (s.setErr c).resets = s.resets := rfl
@[simp] theorem setErr_pending : (s.setErr c).pending = s.pending := rfl
@[simp] theorem setErr_response : (s.setErr c).response = s.response := rfl
@[simp] theorem setErr_len : (s.setErr c).len = s.len := rfl
@[simp] theorem setErr_frameByte (j : Nat) : (s.setErr c).frameByte j = s.frameByte j := rfl

end

section

variable (b : Bool)

@[simp] theorem setCsumOk_ctrl : (s.setCsumOk b).ctrl = s.ctrl := rfl
@[simp] theorem setCsumOk_status : (s.setCsumOk b).status = { s.status with csumOk := b } := rfl
@[simp] theorem setCsumOk_frameLen : (s.setCsumOk b).frameLen = s.frameLen := rfl
@[simp] theorem setCsumOk_csum : (s.setCsumOk b).csum = s.csum := rfl
@[simp] theorem setCsumOk_dmm : (s.setCsumOk b).dmm = s.dmm := rfl
@[simp] theorem setCsumOk_load : (s.setCsumOk b).load = s.load := rfl
@[simp] theorem setCsumOk_frame : (s.setCsumOk b).frame = s.frame := rfl
@[simp] theorem setCsumOk_resets : (s.setCsumOk b).resets = s.resets := rfl
@[simp] theorem setCsumOk_pending : (s.setCsumOk b).pending = s.pending := rfl
@[simp] theorem setCsumOk_response : (s.setCsumOk b).response = s.response := rfl
@[simp] theorem setCsumOk_len : (s.setCsumOk b).len = s.len := rfl
@[simp] theorem setCsumOk_frameByte (j : Nat) : (s.setCsumOk b).frameByte j = s.frameByte j := rfl

end

section

variable (b : Bool)

@[simp] theorem setDmmValid_ctrl : (s.setDmmValid b).ctrl = s.ctrl := rfl
@[simp] theorem setDmmValid_status : (s.setDmmValid b).status = { s.status with dmmValid := b } := rfl
@[simp] theorem setDmmValid_frameLen : (s.setDmmValid b).frameLen = s.frameLen := rfl
@[simp] theorem setDmmValid_csum : (s.setDmmValid b).csum = s.csum := rfl
@[simp] theorem setDmmValid_dmm : (s.setDmmValid b).dmm = s.dmm := rfl
@[simp] theorem setDmmValid_load : (s.setDmmValid b).load = s.load := rfl
@[simp] theorem setDmmValid_frame : (s.setDmmValid b).frame = s.frame := rfl
@[simp] theorem setDmmValid_resets : (s.setDmmValid b).resets = s.resets := rfl
@[simp] theorem setDmmValid_pending : (s.setDmmValid b).pending = s.pending := rfl
@[simp] theorem setDmmValid_response : (s.setDmmValid b).response = s.response := rfl
@[simp] theorem setDmmValid_len : (s.setDmmValid b).len = s.len := rfl
@[simp] theorem setDmmValid_frameByte (j : Nat) : (s.setDmmValid b).frameByte j = s.frameByte j := rfl

end

section

variable (b : Bool)

@[simp] theorem setLdValid_ctrl : (s.setLdValid b).ctrl = s.ctrl := rfl
@[simp] theorem setLdValid_status : (s.setLdValid b).status = { s.status with ldValid := b } := rfl
@[simp] theorem setLdValid_frameLen : (s.setLdValid b).frameLen = s.frameLen := rfl
@[simp] theorem setLdValid_csum : (s.setLdValid b).csum = s.csum := rfl
@[simp] theorem setLdValid_dmm : (s.setLdValid b).dmm = s.dmm := rfl
@[simp] theorem setLdValid_load : (s.setLdValid b).load = s.load := rfl
@[simp] theorem setLdValid_frame : (s.setLdValid b).frame = s.frame := rfl
@[simp] theorem setLdValid_resets : (s.setLdValid b).resets = s.resets := rfl
@[simp] theorem setLdValid_pending : (s.setLdValid b).pending = s.pending := rfl
@[simp] theorem setLdValid_response : (s.setLdValid b).response = s.response := rfl
@[simp] theorem setLdValid_len : (s.setLdValid b).len = s.len := rfl
@[simp] theorem setLdValid_frameByte (j : Nat) : (s.setLdValid b).frameByte j = s.frameByte j := rfl

end

section

variable (i : Nat) (v : Byte)

@[simp] theorem setFrameByte_ctrl : (s.setFrameByte i v).ctrl = s.ctrl := rfl
@[simp] theorem setFrameByte_status : (s.setFrameByte i v).status = s.status := rfl
@[simp] theorem setFrameByte_frameLen : (s.setFrameByte i v).frameLen = s.frameLen := rfl
@[simp] theorem setFrameByte_csum : (s.setFrameByte i v).csum = s.csum := rfl
@[simp] theorem setFrameByte_dmm : (s.setFrameByte i v).dmm = s.dmm := rfl
@[simp] theorem setFrameByte_load : (s.setFrameByte i v).load = s.load := rfl
@[simp] theorem setFrameByte_frame : (s.setFrameByte i v).frame = Memory.write s.frame i v := rfl
@[simp] theorem setFrameByte_resets : (s.setFrameByte i v).resets = s.resets := rfl
@[simp] theorem setFrameByte_pending : (s.setFrameByte i v).pending = s.pending := rfl
@[simp] theorem setFrameByte_response : (s.setFrameByte i v).response = s.response := rfl
@[simp] theorem setFrameByte_len : (s.setFrameByte i v).len = s.len := rfl

end

section

variable (b : Bool)

@[simp] theorem setGateEn_ctrl : (s.setGateEn b).ctrl = { s.ctrl with gateEn := b } := rfl
@[simp] theorem setGateEn_status : (s.setGateEn b).status = s.status := rfl
@[simp] theorem setGateEn_frameLen : (s.setGateEn b).frameLen = s.frameLen := rfl
@[simp] theorem setGateEn_csum : (s.setGateEn b).csum = s.csum := rfl
@[simp] theorem setGateEn_dmm : (s.setGateEn b).dmm = s.dmm := rfl
@[simp] theorem setGateEn_load : (s.setGateEn b).load = s.load := rfl
@[simp] theorem setGateEn_frame : (s.setGateEn b).frame = s.frame := rfl
@[simp] theorem setGateEn_resets : (s.setGateEn b).resets = s.resets := rfl
@[simp] theorem setGateEn_pending : (s.setGateEn b).pending = s.pending := rfl
@[simp] theorem setGateEn_response : (s.setGateEn b).response = s.response := rfl
@[simp] theorem setGateEn_len : (s.setGateEn b).len = s.len := rfl
@[simp] theorem setGateEn_frameByte (j : Nat) : (s.setGateEn b).frameByte j = s.frameByte j := rfl

end

section

variable (n : Byte)

@[simp] theorem setLen_ctrl : (s.setLen n).ctrl = s.ctrl := rfl
@[simp] theorem setLen_status : (s.setLen n).status = s.status := rfl
@[simp] theorem setLen_frameLen : (s.setLen n).frameLen = n := rfl
@[simp] theorem setLen_csum : (s.setLen n).csum = s.csum := rfl
@[simp] theorem setLen_dmm : (s.setLen n).dmm = s.dmm := rfl
@[simp] theorem setLen_load : (s.setLen n).load = s.load := rfl
@[simp] theorem setLen_frame : (s.setLen n).frame = s.frame := rfl
@[simp] theorem setLen_resets : (s.setLen n).resets = s.resets := rfl
@[simp] theorem setLen_pending : (s.setLen n).pending = s.pending := rfl
@[simp] theorem setLen_response : (s.setLen n).response = s.response := rfl
@[simp] theorem setLen_len : (s.setLen n).len = n.toNat := rfl
@[simp] theorem setLen_frameByte (j : Nat) : (s.setLen n).frameByte j = s.frameByte j := rfl

end

section

variable (x y : Byte)

@[simp] theorem setCsum_ctrl : (s.setCsum x y).ctrl = s.ctrl := rfl
@[simp] theorem setCsum_status : (s.setCsum x y).status = s.status := rfl
@[simp] theorem setCsum_frameLen : (s.setCsum x y).frameLen = s.frameLen := rfl
@[simp] theorem setCsum_csum : (s.setCsum x y).csum = { sum := x, chk := y } := rfl
@[simp] theorem setCsum_dmm : (s.setCsum x y).dmm = s.dmm := rfl
@[simp] theorem setCsum_load : (s.setCsum x y).load = s.load := rfl
@[simp] theorem setCsum_frame : (s.setCsum x y).frame = s.frame := rfl
@[simp] theorem setCsum_resets : (s.setCsum x y).resets = s.resets := rfl
@[simp] theorem setCsum_pending : (s.setCsum x y).pending = s.pending := rfl
@[simp] theorem setCsum_response : (s.setCsum x y).response = s.response := rfl
@[simp] theorem setCsum_len : (s.setCsum x y).len = s.len := rfl
@[simp] theorem setCsum_frameByte (j : Nat) : (s.setCsum x y).frameByte j = s.frameByte j := rfl

end

section

variable (b : DmmBank)

@[simp] theorem setDmm_ctrl : (s.setDmm b).ctrl = s.ctrl := rfl
@[simp] theorem setDmm_status : (s.setDmm b).status = s.status := rfl
@[simp] theorem setDmm_frameLen : (s.setDmm b).frameLen = s.frameLen := rfl
@[simp] theorem setDmm_csum : (s.setDmm b).csum = s.csum := rfl
@[simp] theorem setDmm_dmm : (s.setDmm b).dmm = b := rfl
@[simp] theorem setDmm_load : (s.setDmm b).load = s.load := rfl
@[simp] theorem setDmm_frame : (s.setDmm b).frame = s.frame := rfl
@[simp] theorem setDmm_resets : (s.setDmm b).resets = s.resets := rfl
@[simp] theorem setDmm_pending : (s.setDmm b).pending = s.pending := rfl
@[simp] theorem setDmm_response : (s.setDmm b).response = s.response := rfl
@[simp] theorem setDmm_len : (s.setDmm b).len = s.len := rfl
@[simp] theorem setDmm_frameByte (j : Nat) : (s.setDmm b).frameByte j = s.frameByte j := rfl

end

section

variable (b : LoadBank)

@[simp] theorem setLoad_ctrl : (s.setLoad b).ctrl = s.ctrl := rfl
@[simp] theorem setLoad_status : (s.setLoad b).status = s.status := rfl
@[simp] theorem setLoad_frameLen : (s.setLoad b).frameLen = s.frameLen := rfl
@[simp] theorem setLoad_csum : (s.setLoad b).csum = s.csum := rfl
@[simp] theorem setLoad_dmm : (s.setLoad b).dmm = s.dmm := rfl
@[simp] theorem setLoad_load : (s.setLoad b).load = b := rfl
@[simp] theorem setLoad_frame : (s.setLoad b).frame = s.frame := rfl
@[simp] theorem setLoad_resets : (s.setLoad b).resets = s.resets := rfl
@[simp] theorem setLoad_pending : (s.setLoad b).pending = s.pending := rfl
@[simp] theorem setLoad_response : (s.setLoad b).response = s.response := rfl
@[simp] theorem setLoad_len : (s.setLoad b).len = s.len := rfl
@[simp] theorem setLoad_frameByte (j : Nat) : (s.setLoad b).frameByte j = s.frameByte j := rfl

end

section

variable (r : Response)

@[simp] theorem respond_ctrl : (s.respond r).ctrl = s.ctrl := rfl
@[simp] theorem respond_status : (s.respond r).status = s.status := rfl
@[simp] theorem respond_frameLen : (s.respond r).frameLen = s.frameLen := rfl
@[simp] theorem respond_csum : (s.respond r).csum = s.csum := rfl
@[simp] theorem respond_dmm : (s.respond r).dmm = s.dmm := rfl
@[simp] theorem respond_load : (s.respond r).load = s.load := rfl
@[simp] theorem respond_frame : (s.respond r).frame = s.frame := rfl
@[simp] theorem respond_resets : (s.respond r).resets = s.resets := rfl
@[simp] theorem respond_pending : (s.respond r).pending = s.pending := rfl
@[simp] theorem respond_response : (s.respond r).response = some r := rfl
@[simp] theorem respond_len : (s.respond r).len = s.len := rfl
@[simp] theorem respond_frameByte (j : Nat) : (s.respond r).frameByte j = s.frameByte j := rfl

end

@[simp] theorem sent_ctrl : s.sent.ctrl = s.ctrl := rfl
@[simp] theorem sent_status : s.sent.status = s.status := rfl
@[simp] theorem sent_frameLen : s.sent.frameLen = s.frameLen := rfl
@[simp] theorem sent_csum : s.sent.csum = s.csum := rfl
@[simp] theorem sent_dmm : s.sent.dmm = s.dmm := rfl
@[simp] theorem sent_load : s.sent.load = s.load := rfl
@[simp] theorem sent_frame : s.sent.frame = s.frame := rfl
@[simp] theorem sent_resets : s.sent.resets = s.resets := rfl
@[simp] theorem sent_pending : s.sent.pending = s.pending.tail := rfl
@[simp] theorem sent_response : s.sent.response = s.response := rfl
@[simp] theorem sent_len : s.sent.len = s.len := rfl
@[simp] theorem sent_frameByte (j : Nat) : s.sent.frameByte j = s.frameByte j := rfl

@[simp] theorem resetBlock_ctrl : s.resetBlock.ctrl = State.reset.ctrl := rfl
@[simp] theorem resetBlock_status : s.resetBlock.status = State.reset.status := rfl
@[simp] theorem resetBlock_frameLen : s.resetBlock.frameLen = State.reset.frameLen := rfl
@[simp] theorem resetBlock_csum : s.resetBlock.csum = State.reset.csum := rfl
@[simp] theorem resetBlock_dmm : s.resetBlock.dmm = State.reset.dmm := rfl
@[simp] theorem resetBlock_load : s.resetBlock.load = State.reset.load := rfl
@[simp] theorem resetBlock_frame : s.resetBlock.frame = State.reset.frame := rfl
@[simp] theorem resetBlock_resets : s.resetBlock.resets = s.resets + 1 := rfl
@[simp] theorem resetBlock_pending : s.resetBlock.pending = s.pending := rfl
@[simp] theorem resetBlock_response : s.resetBlock.response = State.reset.response := rfl

section

variable (k : Nat) (v : Word)

@[simp] theorem writeFrameWord_ctrl : (s.writeFrameWord k v).ctrl = s.ctrl := rfl
@[simp] theorem writeFrameWord_status : (s.writeFrameWord k v).status = s.status := rfl
@[simp] theorem writeFrameWord_frameLen : (s.writeFrameWord k v).frameLen = s.frameLen := rfl
@[simp] theorem writeFrameWord_csum : (s.writeFrameWord k v).csum = s.csum := rfl
@[simp] theorem writeFrameWord_dmm : (s.writeFrameWord k v).dmm = s.dmm := rfl
@[simp] theorem writeFrameWord_load : (s.writeFrameWord k v).load = s.load := rfl
@[simp] theorem writeFrameWord_resets : (s.writeFrameWord k v).resets = s.resets := rfl
@[simp] theorem writeFrameWord_pending : (s.writeFrameWord k v).pending = s.pending := rfl
@[simp] theorem writeFrameWord_response : (s.writeFrameWord k v).response = s.response := rfl
@[simp] theorem writeFrameWord_len : (s.writeFrameWord k v).len = s.len := rfl

end

section

variable (v : Word)

@[simp] theorem writeFrameLen_ctrl : (s.writeFrameLen v).ctrl = s.ctrl := by
  unfold State.writeFrameLen; split <;> rfl

@[simp] theorem writeFrameLen_status : (s.writeFrameLen v).status = s.status := by
  unfold State.writeFrameLen; split <;> rfl

@[simp] theorem writeFrameLen_csum : (s.writeFrameLen v).csum = s.csum := by
  unfold State.writeFrameLen; split <;> rfl

@[simp] theorem writeFrameLen_dmm : (s.writeFrameLen v).dmm = s.dmm := by
  unfold State.writeFrameLen; split <;> rfl

@[simp] theorem writeFrameLen_load : (s.writeFrameLen v).load = s.load := by
  unfold State.writeFrameLen; split <;> rfl

@[simp] theorem writeFrameLen_frame : (s.writeFrameLen v).frame = s.frame := by
  unfold State.writeFrameLen; split <;> rfl

@[simp] theorem writeFrameLen_resets : (s.writeFrameLen v).resets = s.resets := by
  unfold State.writeFrameLen; split <;> rfl

@[simp] theorem writeFrameLen_pending : (s.writeFrameLen v).pending = s.pending := by
  unfold State.writeFrameLen; split <;> rfl

@[simp] theorem writeFrameLen_response : (s.writeFrameLen v).response = s.response := by
  unfold State.writeFrameLen; split <;> rfl

@[simp] theorem writeFrameLen_frameLen : (s.writeFrameLen v).frameLen =
    if (byteOfWord v 0).toNat ≤ Config.frameCap then byteOfWord v 0 else s.frameLen := by
  unfold State.writeFrameLen; split <;> rfl

@[simp] theorem writeFrameLen_frameByte (j : Nat) : (s.writeFrameLen v).frameByte j = s.frameByte j := by
  unfold State.writeFrameLen; split <;> rfl

end

end Sys2Proof.Machine
end

