-- ==== Sys2Proof/Laws/Memory.lean ====
section
/-! SUPPORT. The frame buffer's laws: a read after a write, and the canonical form. -/

namespace Sys2Proof.Machine

@[simp] theorem read?_write_self (m : Memory) (i : Nat) (v : Byte) : Memory.read? (Memory.write m i v) i = some v := by
  induction m with
  | nil => simp [Memory.write, Memory.read?]
  | cons c m ih =>
    obtain ⟨j, b⟩ := c
    simp only [Memory.write]
    split
    · simp [Memory.read?]
    · split
      · simp [Memory.read?]
      · simp [Memory.read?, ih, show ¬ j = i by omega]

theorem read?_write_other (m : Memory) {i k : Nat} (v : Byte) (h : k ≠ i) :
    Memory.read? (Memory.write m i v) k = Memory.read? m k := by
  induction m with
  | nil => simp [Memory.write, Memory.read?, h.symm]
  | cons c m ih =>
    obtain ⟨j, b⟩ := c
    simp only [Memory.write]
    split
    · simp [Memory.read?, h.symm]
    · split
      · rename_i h2
        subst h2
        simp [Memory.read?, h.symm]
      · simp only [Memory.read?, ih]

theorem risingFrom_mono {lo lo' : Nat} (h : lo' ≤ lo) {m : Memory} (hm : Memory.risingFrom lo m = true) :
    Memory.risingFrom lo' m = true := by
  cases m with
  | nil => rfl
  | cons c m =>
    simp only [Memory.risingFrom, Bool.and_eq_true, decide_eq_true_eq] at hm ⊢
    exact ⟨⟨by omega, hm.1.2⟩, hm.2⟩

theorem risingFrom_write {lo i : Nat} (v : Byte) (hlo : lo ≤ i) (hi : i < Config.frameCap) {m : Memory}
    (hm : Memory.risingFrom lo m = true) : Memory.risingFrom lo (Memory.write m i v) = true := by
  induction m generalizing lo with
  | nil => simp [Memory.write, Memory.risingFrom, hlo, hi]
  | cons c m ih =>
    simp only [Memory.risingFrom, Bool.and_eq_true, decide_eq_true_eq] at hm
    simp only [Memory.write]
    split
    · simp [Memory.risingFrom, hlo, hi, hm.1.2, hm.2]; omega
    · split
      · rename_i h2
        subst h2
        simp [Memory.risingFrom, hlo, hi, hm.2]
      · simp only [Memory.risingFrom, Bool.and_eq_true, decide_eq_true_eq]
        exact ⟨hm.1, ih (by omega) hm.2⟩

/-- Every write below `FRAME_CAP` keeps the canonical form. -/
theorem wf_write {m : Memory} {i : Nat} (v : Byte) (hm : Memory.wf m = true) (hi : i < Config.frameCap) :
    Memory.wf (Memory.write m i v) = true :=
  risingFrom_write v (Nat.zero_le i) hi hm

theorem wf_reset : Memory.wf State.reset.frame = true := rfl

/-- A canonical buffer lists nothing below its first index. -/
theorem read?_eq_none_of_risingFrom {lo i : Nat} (h : i < lo) {m : Memory} (hm : Memory.risingFrom lo m = true) :
    Memory.read? m i = none := by
  induction m generalizing lo with
  | nil => rfl
  | cons c m ih =>
    simp only [Memory.risingFrom, Bool.and_eq_true, decide_eq_true_eq] at hm
    simp only [Memory.read?, show ¬ c.1 = i by omega, if_false]
    exact ih (by omega) hm.2

/-- In the canonical form, two buffers in which the same bytes are written are the same data. -/
theorem eq_of_read?_eq {lo : Nat} {m m' : Memory} (hm : Memory.risingFrom lo m = true)
    (hm' : Memory.risingFrom lo m' = true) (h : ∀ i, Memory.read? m i = Memory.read? m' i) : m = m' := by
  induction m generalizing lo m' with
  | nil =>
    cases m' with
    | nil => rfl
    | cons c' m' => simpa [Memory.read?] using h c'.1
  | cons c m ih =>
    cases m' with
    | nil => simpa [Memory.read?] using h c.1
    | cons c' m' =>
      obtain ⟨i, v⟩ := c
      obtain ⟨j, w⟩ := c'
      simp only [Memory.risingFrom, Bool.and_eq_true, decide_eq_true_eq] at hm hm'
      have below : ∀ k, k < i + 1 → Memory.read? m k = none := fun k hk => read?_eq_none_of_risingFrom hk hm.2
      have below' : ∀ k, k < j + 1 → Memory.read? m' k = none := fun k hk => read?_eq_none_of_risingFrom hk hm'.2
      have hij : i = j := by
        by_contra hne
        rcases Nat.lt_or_gt_of_ne hne with hlt | hlt
        · have := h i
          simp [Memory.read?, below' i (by omega), show ¬ j = i by omega] at this
        · have := h j
          simp [Memory.read?, below j (by omega), show ¬ i = j by omega] at this
      subst hij
      have hv : v = w := by simpa [Memory.read?] using h i
      subst hv
      congr 1
      refine ih hm.2 hm'.2 fun k => ?_
      by_cases hk : i = k
      · subst hk; rw [below i (by omega), below' i (by omega)]
      · simpa [Memory.read?, hk] using h k

@[simp] theorem frameByte_setFrameByte_self (s : State) (i : Nat) (v : Byte) :
    (s.setFrameByte i v).frameByte i = v := by
  simp [State.frameByte]

theorem frameByte_setFrameByte_other (s : State) {i j : Nat} (v : Byte) (h : j ≠ i) :
    (s.setFrameByte i v).frameByte j = s.frameByte j := by
  simp [State.frameByte, read?_write_other _ _ h]

theorem frameByte_setFrameByte (s : State) (i j : Nat) (v : Byte) :
    (s.setFrameByte i v).frameByte j = if j = i then v else s.frameByte j := by
  split
  · rename_i h; subst h; simp
  · rename_i h; exact frameByte_setFrameByte_other s v h

/-- A frame byte depends on the buffer and the reset count only. -/
theorem frameByte_congr {s t : State} (hf : t.frame = s.frame) (hr : t.resets = s.resets) (i : Nat) :
    t.frameByte i = s.frameByte i := by
  simp [State.frameByte, hf, hr]

end Sys2Proof.Machine
end

