-- ==== Sys2Proof/Laws/Operands.lean ====
section
/-! SUPPORT. What the operand forms and the named operations over the frame compute: one lemma each. -/

namespace Sys2Proof.Machine

/-- The byte sum is the sum of the frame's list of bytes. -/
theorem byteSum_eq_sum (s : State) (n : Nat) : s.byteSum n = (((List.range n).map s.frameByte).map BitVec.toNat).sum := by
  induction n with
  | zero => rfl
  | succ n ih => simp [State.byteSum, ih, List.range_succ]

/-- `sum8(LEN)` is the frame's byte sum modulo 256. -/
theorem sum8_len (s : State) : s.sum8 s.len = modSum s.frameBytes := by
  rw [State.sum8, byteSum_eq_sum]; rfl

/-- The byte sum depends on the summed bytes only. -/
theorem byteSum_congr {s t : State} {n : Nat} (h : ∀ i, i < n → t.frameByte i = s.frameByte i) :
    t.byteSum n = s.byteSum n := by
  induction n with
  | zero => rfl
  | succ n ih => rw [State.byteSum, State.byteSum, ih fun i hi => h i (by omega), h n (by omega)]

theorem sum8_congr {s t : State} {n : Nat} (h : ∀ i, i < n → t.frameByte i = s.frameByte i) :
    t.sum8 n = s.sum8 n := by
  rw [State.sum8, State.sum8, byteSum_congr h]

/-- The frame's bytes depend on LEN and the bytes below it only. -/
theorem frameBytes_congr {s t : State} (hl : t.frameLen = s.frameLen)
    (h : ∀ i, i < s.len → t.frameByte i = s.frameByte i) : t.frameBytes = s.frameBytes := by
  simp only [State.frameBytes, hl]
  exact List.map_congr_left fun i hi => h i (by simpa [State.len] using hi)

theorem sum8_lt (s : State) (n : Nat) : s.sum8 n < 256 := Nat.mod_lt _ (by decide)

/-- Setting one summed byte changes the sum by that byte. -/
theorem byteSum_setFrameByte (s : State) {i n : Nat} (v : Byte) (h : i < n) :
    (s.setFrameByte i v).byteSum n + (s.frameByte i).toNat = s.byteSum n + v.toNat := by
  induction n with
  | zero => omega
  | succ n ih =>
    simp only [State.byteSum]
    by_cases hn : i = n
    · subst hn
      rw [frameByte_setFrameByte_self,
        byteSum_congr (s := s) fun j hj => frameByte_setFrameByte_other s v (by omega)]
      omega
    · have := ih (by omega)
      rw [frameByte_setFrameByte_other s v (show n ≠ i by omega)]
      omega

/-- A payload sum and its checksum byte add to 0 modulo 256 (R100). -/
theorem sum_add_checksumOf {n : Nat} (h : n < 256) : (n + (checksumOf n).toNat) % 256 = 0 := by
  simp [checksumOf]; omega

theorem checksumOf_toNat {n : Nat} : (checksumOf n).toNat = (256 - n) % 256 := by
  simp [checksumOf]

/-- `le16(i)` as a number. -/
theorem le16_toNat (s : State) (i : Nat) :
    (s.le16 i).toNat = (s.frameByte i).toNat + 256 * (s.frameByte (i + 1)).toNat := by
  have := (s.frameByte i).isLt
  have := (s.frameByte (i + 1)).isLt
  simp [State.le16]; omega

/-- `le32(i)` as a number. -/
theorem le32_toNat (s : State) (i : Nat) :
    (s.le32 i).toNat = (s.frameByte i).toNat + 2 ^ 8 * (s.frameByte (i + 1)).toNat
      + 2 ^ 16 * (s.frameByte (i + 2)).toNat + 2 ^ 24 * (s.frameByte (i + 3)).toNat := by
  have := (s.frameByte i).isLt
  have := (s.frameByte (i + 1)).isLt
  have := (s.frameByte (i + 2)).isLt
  have := (s.frameByte (i + 3)).isLt
  simp [State.le32]; omega

/-- A byte appended below a bit vector, as a number. -/
theorem toNat_append_byte {n : Nat} (x : BitVec n) (b : Byte) : (x ++ b).toNat = 2 ^ 8 * x.toNat + b.toNat := by
  rw [BitVec.toNat_append, ← Nat.shiftLeft_add_eq_or_of_lt b.isLt, Nat.shiftLeft_eq, Nat.mul_comm]

/-- Four bytes packed little-endian, as a number (R31). -/
theorem wordOfBytes_toNat (b0 b1 b2 b3 : Byte) :
    (wordOfBytes b0 b1 b2 b3).toNat = b0.toNat + 2 ^ 8 * b1.toNat + 2 ^ 16 * b2.toNat + 2 ^ 24 * b3.toNat := by
  rw [wordOfBytes, toNat_append_byte, toNat_append_byte, toNat_append_byte]
  omega

/-- `le32` is the four bytes packed little-endian (R144). -/
theorem le32_eq_wordOfBytes (s : State) (i : Nat) :
    s.le32 i = wordOfBytes (s.frameByte i) (s.frameByte (i + 1)) (s.frameByte (i + 2)) (s.frameByte (i + 3)) := by
  apply BitVec.eq_of_toNat_eq
  rw [le32_toNat, wordOfBytes_toNat]

theorem byteOfWord_toNat (w : Word) (k : Nat) : (byteOfWord w k).toNat = w.toNat / 2 ^ (8 * k) % 256 := by
  simp [byteOfWord, Nat.shiftRight_eq_div_pow]

/-- A word is its four bytes packed. -/
@[simp] theorem wordOfBytes_byteOfWord (w : Word) :
    wordOfBytes (byteOfWord w 0) (byteOfWord w 1) (byteOfWord w 2) (byteOfWord w 3) = w := by
  have := w.isLt
  apply BitVec.eq_of_toNat_eq
  simp only [wordOfBytes_toNat, byteOfWord_toNat]
  omega

/-- The bytes of a packed word are the bytes packed. -/
theorem bytesOfWord_wordOfBytes (b0 b1 b2 b3 : Byte) : bytesOfWord (wordOfBytes b0 b1 b2 b3) = [b0, b1, b2, b3] := by
  have := b0.isLt
  have := b1.isLt
  have := b2.isLt
  have := b3.isLt
  have e0 : byteOfWord (wordOfBytes b0 b1 b2 b3) 0 = b0 := by
    apply BitVec.eq_of_toNat_eq; rw [byteOfWord_toNat, wordOfBytes_toNat]; omega
  have e1 : byteOfWord (wordOfBytes b0 b1 b2 b3) 1 = b1 := by
    apply BitVec.eq_of_toNat_eq; rw [byteOfWord_toNat, wordOfBytes_toNat]; omega
  have e2 : byteOfWord (wordOfBytes b0 b1 b2 b3) 2 = b2 := by
    apply BitVec.eq_of_toNat_eq; rw [byteOfWord_toNat, wordOfBytes_toNat]; omega
  have e3 : byteOfWord (wordOfBytes b0 b1 b2 b3) 3 = b3 := by
    apply BitVec.eq_of_toNat_eq; rw [byteOfWord_toNat, wordOfBytes_toNat]; omega
  simp [bytesOfWord, e0, e1, e2, e3]

theorem highNibble_toNat (b : Byte) : (highNibble b).toNat = b.toNat / 16 := by
  have := b.isLt
  simp [highNibble, Nat.shiftRight_eq_div_pow]; omega

theorem lowNibble_toNat (b : Byte) : (lowNibble b).toNat = b.toNat % 16 := by
  simp [lowNibble]

theorem opField_toNat (w : Word) : (opField w).toNat = w.toNat % 16 := by simp [opField]

theorem rsvdField_toNat (w : Word) : (rsvdField w).toNat = w.toNat / 16 := by
  have := w.isLt
  simp [rsvdField, Nat.shiftRight_eq_div_pow]; omega

/-- The gate, in the words of R103. -/
theorem gateOk_iff (s : State) : s.gateOk = true ↔ s.ctrl.gateEn = false ∨ modSum s.frameBytes = 0 := by
  simp [State.gateOk, sumIsZero, sum8_len]

/-- The decoder checks pass exactly where the length and the gate do (R173). -/
theorem decodeError?_none {m : Nat} {s : State} : s.decodeError? m = none ↔ m ≤ s.len ∧ s.gateOk = true := by
  unfold State.decodeError?
  split
  · simp; omega
  · split <;> simp_all

theorem decodeError?_cases (m : Nat) (s : State) :
    (s.decodeError? m = some .frameTooShort ∧ s.len < m) ∨
    (s.decodeError? m = some .checksumMismatch ∧ m ≤ s.len ∧ s.gateOk = false) ∨
    (s.decodeError? m = none ∧ m ≤ s.len ∧ s.gateOk = true) := by
  unfold State.decodeError?
  split
  · simp_all
  · rename_i h
    split <;> simp_all

/-- The gate depends on CTRL, LEN and the frame only. -/
theorem gateOk_congr {s t : State} (hc : t.ctrl = s.ctrl) (hl : t.frameLen = s.frameLen)
    (h : ∀ i, i < s.len → t.frameByte i = s.frameByte i) : t.gateOk = s.gateOk := by
  have hlen : t.len = s.len := congrArg BitVec.toNat hl
  simp only [State.gateOk, hc, hlen, sum8_congr h]

/-- The decoder checks depend on CTRL, LEN and the frame only. -/
theorem decodeError?_congr {s t : State} (m : Nat) (hc : t.ctrl = s.ctrl) (hl : t.frameLen = s.frameLen)
    (h : ∀ i, i < s.len → t.frameByte i = s.frameByte i) : t.decodeError? m = s.decodeError? m := by
  have hlen : t.len = s.len := congrArg BitVec.toNat hl
  simp only [State.decodeError?, hlen, gateOk_congr hc hl h]

theorem le16_congr {s t : State} {i : Nat} (h : ∀ j, i ≤ j → j ≤ i + 1 → t.frameByte j = s.frameByte j) :
    t.le16 i = s.le16 i := by
  simp only [State.le16, h i (by omega) (by omega), h (i + 1) (by omega) (by omega)]

theorem le32_congr {s t : State} {i : Nat} (h : ∀ j, i ≤ j → j ≤ i + 3 → t.frameByte j = s.frameByte j) :
    t.le32 i = s.le32 i := by
  simp only [State.le32, h i (by omega) (by omega), h (i + 1) (by omega) (by omega), h (i + 2) (by omega) (by omega),
    h (i + 3) (by omega) (by omega)]

/-- The exponent in terms of the byte's number (R122). -/
theorem dmmExponent_eq (e : Byte) : dmmExponent e = 3 * (e.toNat / 16 : Nat) - (e.toNat % 16 / 2 : Nat) := by
  rw [dmmExponent, highNibble_toNat, lowNibble_toNat]

theorem highNibble_eq (b : Byte) : highNibble b = BitVec.ofNat 4 (b.toNat / 16) := by
  have := b.isLt
  apply BitVec.eq_of_toNat_eq
  rw [highNibble_toNat, BitVec.toNat_ofNat]; omega

theorem lowNibble_eq (b : Byte) : lowNibble b = BitVec.ofNat 4 (b.toNat % 16) := by
  apply BitVec.eq_of_toNat_eq
  rw [lowNibble_toNat, BitVec.toNat_ofNat]; omega

/-- `s32` is the two's-complement reading of a bit vector (R8). -/
theorem s32_eq_toInt (w : Word) : s32 w = w.toInt := by
  have := w.isLt
  rw [s32, BitVec.toInt_eq_toNat_cond]
  split <;> split <;> omega

/-- STATUS as a number (R25). -/
theorem statusWord_eq (st : Status) :
    st.word = BitVec.ofNat 32
      (st.err.toNat + 16 * st.csumOk.toNat + 32 * st.dmmValid.toNat + 64 * st.ldValid.toNat) := by
  obtain ⟨err, a, b, c⟩ := st
  have := err.isLt
  apply BitVec.eq_of_toNat_eq
  have happ : ∀ (n : Nat) (x : BitVec n), (x ++ err).toNat = 16 * x.toNat + err.toNat := fun n x => by
    rw [BitVec.toNat_append, ← Nat.shiftLeft_add_eq_or_of_lt err.isLt, Nat.shiftLeft_eq, Nat.mul_comm]
  cases a <;> cases b <;> cases c <;> simp [Status.word, happ] <;> omega

/-- CSUM as a number (R27). -/
theorem csumWord_eq (c : Csum) : c.word = BitVec.ofNat 32 (c.sum.toNat + 256 * c.chk.toNat) := by
  have := c.sum.isLt
  have := c.chk.isLt
  apply BitVec.eq_of_toNat_eq
  rw [Csum.word, BitVec.toNat_setWidth, toNat_append_byte, BitVec.toNat_ofNat]
  omega

/-! No register write but FRAME_LEN's and CTRL's reaches the sum or the decoder checks. -/

@[simp] theorem setErr_sum8 (s : State) (c : Nibble) (n : Nat) : (s.setErr c).sum8 n = s.sum8 n := sum8_congr fun _ _ => rfl
@[simp] theorem setCsumOk_sum8 (s : State) (b : Bool) (n : Nat) : (s.setCsumOk b).sum8 n = s.sum8 n := sum8_congr fun _ _ => rfl
@[simp] theorem setDmmValid_sum8 (s : State) (b : Bool) (n : Nat) : (s.setDmmValid b).sum8 n = s.sum8 n := sum8_congr fun _ _ => rfl
@[simp] theorem setLdValid_sum8 (s : State) (b : Bool) (n : Nat) : (s.setLdValid b).sum8 n = s.sum8 n := sum8_congr fun _ _ => rfl
@[simp] theorem setCsum_sum8 (s : State) (x y : Byte) (n : Nat) : (s.setCsum x y).sum8 n = s.sum8 n := sum8_congr fun _ _ => rfl
@[simp] theorem setDmm_sum8 (s : State) (b : DmmBank) (n : Nat) : (s.setDmm b).sum8 n = s.sum8 n := sum8_congr fun _ _ => rfl
@[simp] theorem setLoad_sum8 (s : State) (b : LoadBank) (n : Nat) : (s.setLoad b).sum8 n = s.sum8 n := sum8_congr fun _ _ => rfl
@[simp] theorem respond_sum8 (s : State) (r : Response) (n : Nat) : (s.respond r).sum8 n = s.sum8 n := sum8_congr fun _ _ => rfl

@[simp] theorem setErr_decodeError? (s : State) (c : Nibble) (m : Nat) : (s.setErr c).decodeError? m = s.decodeError? m :=
  decodeError?_congr (s := s) m rfl rfl fun _ _ => rfl
@[simp] theorem setCsumOk_decodeError? (s : State) (b : Bool) (m : Nat) : (s.setCsumOk b).decodeError? m = s.decodeError? m :=
  decodeError?_congr (s := s) m rfl rfl fun _ _ => rfl
@[simp] theorem setDmmValid_decodeError? (s : State) (b : Bool) (m : Nat) : (s.setDmmValid b).decodeError? m = s.decodeError? m :=
  decodeError?_congr (s := s) m rfl rfl fun _ _ => rfl
@[simp] theorem setLdValid_decodeError? (s : State) (b : Bool) (m : Nat) : (s.setLdValid b).decodeError? m = s.decodeError? m :=
  decodeError?_congr (s := s) m rfl rfl fun _ _ => rfl
@[simp] theorem setCsum_decodeError? (s : State) (x y : Byte) (m : Nat) : (s.setCsum x y).decodeError? m = s.decodeError? m :=
  decodeError?_congr (s := s) m rfl rfl fun _ _ => rfl
@[simp] theorem setDmm_decodeError? (s : State) (b : DmmBank) (m : Nat) : (s.setDmm b).decodeError? m = s.decodeError? m :=
  decodeError?_congr (s := s) m rfl rfl fun _ _ => rfl
@[simp] theorem setLoad_decodeError? (s : State) (b : LoadBank) (m : Nat) : (s.setLoad b).decodeError? m = s.decodeError? m :=
  decodeError?_congr (s := s) m rfl rfl fun _ _ => rfl
@[simp] theorem respond_decodeError? (s : State) (r : Response) (m : Nat) : (s.respond r).decodeError? m = s.decodeError? m :=
  decodeError?_congr (s := s) m rfl rfl fun _ _ => rfl

/-- A window write sets the word's four bytes and leaves every other byte (R55). -/
theorem frameByte_writeFrameWord (s : State) (k : Nat) (v : Word) (j : Nat) :
    (s.writeFrameWord k v).frameByte j =
      if 4 * k ≤ j ∧ j < 4 * k + 4 then byteOfWord v (j - 4 * k) else s.frameByte j := by
  simp only [State.writeFrameWord, frameByte_setFrameByte]
  by_cases h3 : j = 4 * k + 3
  · subst h3; simp
  by_cases h2 : j = 4 * k + 2
  · subst h2; simp
  by_cases h1 : j = 4 * k + 1
  · subst h1; simp
  by_cases h0 : j = 4 * k
  · subst h0; simp
  simp [h0, h1, h2, h3, show ¬ (4 * k ≤ j ∧ j < 4 * k + 4) by omega]

end Sys2Proof.Machine
end

