-- ==== Sys2Proof/Laws/Meanings.lean ====
section
/-! SUPPORT. What each meaning answers: one inversion lemma per command, and what every command shares. -/

namespace Sys2Proof.Machine

@[simp] theorem raiseError_eq (e : CmdError) (s : State) : raiseError e s = .next (s.setErr e.code) := rfl

@[simp] theorem complete_eq (s : State) : complete s = .next (s.setErr errNone) := rfl

/-- The fields of a multimeter frame depend on bytes 9 to 15 only (R129). -/
theorem dmmFields_congr {s t : State} (h : ∀ i, 9 ≤ i → i ≤ 15 → t.frameByte i = s.frameByte i) :
    t.dmmFields = s.dmmFields := by
  simp only [State.dmmFields, h 9 (by omega) (by omega),
    le16_congr (i := 14) fun j _ _ => h j (by omega) (by omega),
    le16_congr (i := 10) fun j _ _ => h j (by omega) (by omega),
    le16_congr (i := 12) fun j _ _ => h j (by omega) (by omega)]

/-- The fields of a load frame depend on LEN and bytes 4 to 26 only (R148). -/
theorem loadFields_congr {s t : State} (hl : t.frameLen = s.frameLen)
    (h : ∀ i, 4 ≤ i → i ≤ 26 → t.frameByte i = s.frameByte i) : t.loadFields = s.loadFields := by
  have w : ∀ i, 4 ≤ i → i ≤ 23 → t.le32 i = s.le32 i :=
    fun i _ _ => le32_congr fun j _ _ => h j (by omega) (by omega)
  simp only [State.loadFields, hl, h 4 (by omega) (by omega), h 5 (by omega) (by omega), h 6 (by omega) (by omega),
    w 7 (by omega) (by omega), w 11 (by omega) (by omega), w 15 (by omega) (by omega), w 19 (by omega) (by omega),
    w 23 (by omega) (by omega)]

/-- GEN either finds the buffer full or appends the checksum byte (R102). -/
theorem execGen_cases (s : State) :
    (s.len = Config.frameCap ∧ execGen s = .next (s.setErr CmdError.frameFull.code)) ∨
    (s.len ≠ Config.frameCap ∧ execGen s = .next
      ((((s.setFrameByte s.len (checksumOf (s.sum8 s.len))).setLen (BitVec.ofNat 8 (s.len + 1))).setCsum
        (BitVec.ofNat 8 (s.sum8 s.len)) (checksumOf (s.sum8 s.len))).setErr errNone)) := by
  by_cases h : s.len = Config.frameCap
  · exact .inl ⟨h, by simp [execGen, h]⟩
  · exact .inr ⟨h, by simp [execGen, h]⟩

/-- DEC_DMM either reports the first failed check and clears DMM_VALID, or writes the bank (R121). -/
theorem execDecDmm_cases (s : State) :
    (∃ e, s.decodeError? dmmMinLen = some e ∧ execDecDmm s = .next ((s.setDmmValid false).setErr e.code)) ∨
    (s.decodeError? dmmMinLen = none ∧
      execDecDmm s = .next (((s.setDmm s.dmmFields).setDmmValid true).setErr errNone)) := by
  cases h : s.decodeError? dmmMinLen with
  | some e => exact .inl ⟨e, rfl, by simp [execDecDmm, h]⟩
  | none => exact .inr ⟨rfl, by simp [execDecDmm, h]⟩

/-- DEC_LOAD either reports the first failed check and clears LD_VALID, or writes the bank (R141). -/
theorem execDecLoad_cases (s : State) :
    (∃ e, s.decodeError? loadMinLen = some e ∧ execDecLoad s = .next ((s.setLdValid false).setErr e.code)) ∨
    (s.decodeError? loadMinLen = none ∧
      execDecLoad s = .next (((s.setLoad s.loadFields).setLdValid true).setErr errNone)) := by
  cases h : s.decodeError? loadMinLen with
  | some e => exact .inl ⟨e, rfl, by simp [execDecLoad, h]⟩
  | none => exact .inr ⟨rfl, by simp [execDecLoad, h]⟩

/-- What VERIFY answers (R101). -/
theorem execVerify_eq (s : State) :
    execVerify s = .next (((s.setCsum (BitVec.ofNat 8 (s.sum8 s.len)) (checksumOf (s.sum8 s.len))).setCsumOk
      (sumIsZero (s.sum8 s.len))).setErr errNone) := rfl

/-- No command touches the gate, the reset count, the host's further accesses or the bus. -/
theorem exec_keeps_surroundings {i : Instr} {s t : State} (h : exec i s = .next t) :
    t.ctrl = s.ctrl ∧ t.resets = s.resets ∧ t.pending = s.pending ∧ t.response = s.response := by
  cases i with
  | verify =>
    have h : execVerify s = .next t := h
    rw [execVerify_eq, Host.Outcome.next.injEq] at h
    subst h; simp
  | gen =>
    have h : execGen s = .next t := h
    rcases execGen_cases s with ⟨_, e⟩ | ⟨_, e⟩ <;>
      (rw [e, Host.Outcome.next.injEq] at h; subst h; simp)
  | decDmm =>
    have h : execDecDmm s = .next t := h
    rcases execDecDmm_cases s with ⟨_, _, e⟩ | ⟨_, e⟩ <;>
      (rw [e, Host.Outcome.next.injEq] at h; subst h; simp)
  | decLoad =>
    have h : execDecLoad s = .next t := h
    rcases execDecLoad_cases s with ⟨_, _, e⟩ | ⟨_, e⟩ <;>
      (rw [e, Host.Outcome.next.injEq] at h; subst h; simp)

/-- Every command answers a next state (R196). -/
theorem exec_answers (i : Instr) (s : State) : ∃ t, exec i s = .next t := by
  cases i with
  | verify => exact ⟨_, execVerify_eq s⟩
  | gen => rcases execGen_cases s with ⟨_, e⟩ | ⟨_, e⟩ <;> exact ⟨_, e⟩
  | decDmm => rcases execDecDmm_cases s with ⟨_, _, e⟩ | ⟨_, e⟩ <;> exact ⟨_, e⟩
  | decLoad => rcases execDecLoad_cases s with ⟨_, _, e⟩ | ⟨_, e⟩ <;> exact ⟨_, e⟩

end Sys2Proof.Machine
end

