-- ==== Sys2Proof/Laws/Bus.lean ====
section
/-! SUPPORT. The register map's laws, and what an access and a step answer. -/

namespace Sys2Proof

/-- An offset the map has is its register's offset, and the register exists (R22, R31). -/
theorem regAt_sound : ∀ off : Offset, ∀ r, regAt off = some r → r.offset = off ∧ r.wf = true := by decide

theorem regAt_frame : ∀ k, k < Config.frameCap / 4 → regAt (Reg.frame k).offset = some (.frame k) := by decide

/-- Every register that exists is in the map, at its offset (R22). -/
theorem regAt_offset {r : Reg} (h : r.wf = true) : regAt r.offset = some r := by
  cases r with
  | frame k => exact regAt_frame k (by simpa [Reg.wf] using h)
  | _ => decide

theorem regAt_aligned : ∀ off : Offset, ∀ r, regAt off = some r → off.toNat % 4 = 0 := by decide

namespace Machine

/-- An access reaches a register exactly where its width is 4 and its offset that of a register that exists (R51, R52). -/
theorem target?_iff {off : Offset} {width : Nat} {r : Reg} :
    target? off width = some r ↔ width = 4 ∧ off = r.offset ∧ r.wf = true := by
  constructor
  · intro h
    unfold target? at h
    split at h
    · rename_i hw
      exact ⟨hw.1, (regAt_sound off r h).1.symm, (regAt_sound off r h).2⟩
    · cases h
  · rintro ⟨rfl, rfl, hr⟩
    have := regAt_offset hr
    simp [target?, this, regAt_aligned _ _ this]

/-- What a read answers, and that it changes nothing but the answer (R52, R53). -/
theorem access_read (off : Offset) (width : Nat) (s : State) :
    access (.read off width) s = .next (s.respond (match target? off width with
      | some r => { busError := false, data := some (s.readReg r) }
      | none => { busError := true, data := some 0 })) := by
  simp only [access]
  split <;> simp_all [busErrorTo]

/-- A write that reaches no register changes nothing but the answer (R52). -/
theorem access_write_none {off : Offset} {width : Nat} (v : Word) (s : State) (h : target? off width = none) :
    access (.write off width v) s = .next (s.respond { busError := true, data := none }) := by
  simp [access, h, busErrorTo]

/-- A write that reaches a register is that register's write (R54). -/
theorem access_write_some {off : Offset} {width : Nat} {r : Reg} (v : Word) (s : State) (h : target? off width = some r) :
    access (.write off width v) s = writeReg r v (s.respond writeDone) := by
  simp [access, h]

theorem target?_cmd : target? Reg.cmd.offset 4 = some .cmd := by decide

/-- A CMD write of a command's word is that command. -/
theorem cmdWrite_ok {w : Word} {i : Instr} (h : decodeWord w = .ok i) (s : State) : cmdWrite w s = exec i s := by
  simp [cmdWrite, h]

/-- A CMD write of any other word sets ERR to 3 (R73). -/
theorem cmdWrite_error {w : Word} {e : DecodeError} (h : decodeWord w = .error e) (s : State) :
    cmdWrite w s = .next (s.setErr CmdError.illegalCommand.code) := by
  simp [cmdWrite, h]

/-- A step performs the host's oldest event. -/
theorem step_of_pending {s : State} {e : HostEvent} {rest : List HostEvent} (h : s.pending = e :: rest) :
    step s = perform e s.sent := by
  simp [step, serve, h]

/-- The state once the oldest event is taken. -/
theorem sent_of_pending {s : State} {e : HostEvent} {rest : List HostEvent} (h : s.pending = e :: rest) :
    s.sent = { s with pending := rest } := by
  simp [State.sent, h]

/-- A step whose oldest event is an access performs that access. -/
theorem step_of_access {s : State} {a : Access} {rest : List HostEvent} (h : s.pending = .access a :: rest) :
    step s = access a { s with pending := rest } := by
  rw [step_of_pending h, sent_of_pending h]
  simp only [perform]

/-- A step that writes CMD is the CMD write, the answer given. -/
theorem step_of_cmd {s : State} {w : Word} {rest : List HostEvent} (h : s.pending = .access (.write 0x04 4 w) :: rest) :
    step s = cmdWrite w { s with pending := rest, response := some writeDone } := by
  rw [step_of_access h, access_write_some (off := 0x04) (r := .cmd) w _ target?_cmd]
  rfl

/-- A step whose oldest event is a reset resets the block. -/
theorem step_of_reset {s : State} {lost : List Access} {rest : List HostEvent} (h : s.pending = .reset lost :: rest) :
    step s = .next ({ s with pending := rest } : State).resetBlock := by
  rw [step_of_pending h, sent_of_pending h]
  simp only [perform]

/-- With nothing sent, nothing happens (R16, R191). -/
theorem step_of_idle {s : State} (h : s.pending = []) : step s = .next s := by
  simp [step, serve, h]

/-- What a step can do: idle, reset, answer an access without touching the block, or write a register. -/
theorem step_cases (s : State) :
    (s.pending = [] ∧ step s = .next s) ∨
    (∃ lost rest, s.pending = .reset lost :: rest ∧ step s = .next s.sent.resetBlock) ∨
    (∃ a rest r, s.pending = .access a :: rest ∧ step s = .next (s.sent.respond r)) ∨
    (∃ r v rest, r.wf = true ∧ s.pending = .access (.write r.offset 4 v) :: rest ∧
      step s = writeReg r v (s.sent.respond writeDone)) := by
  cases hp : s.pending with
  | nil => exact .inl ⟨rfl, step_of_idle hp⟩
  | cons e rest =>
    rw [step_of_pending hp]
    cases e with
    | reset lost => exact .inr (.inl ⟨lost, rest, rfl, rfl⟩)
    | access a =>
      cases a with
      | read off width => exact .inr (.inr (.inl ⟨_, rest, _, rfl, access_read off width _⟩))
      | write off width v =>
        cases ht : target? off width with
        | none => exact .inr (.inr (.inl ⟨_, rest, _, rfl, access_write_none v _ ht⟩))
        | some r =>
          obtain ⟨rfl, rfl, hr⟩ := target?_iff.mp ht
          exact .inr (.inr (.inr ⟨r, v, rest, hr, rfl, access_write_some v _ ht⟩))

@[simp] theorem writeReg_ctrl (v : Word) (s : State) : writeReg .ctrl v s = .next (s.setGateEn (v.getLsbD 0)) := rfl

@[simp] theorem writeReg_cmd (v : Word) (s : State) : writeReg .cmd v s = cmdWrite v s := rfl

@[simp] theorem writeReg_frameLen (v : Word) (s : State) : writeReg .frameLen v s = .next (s.writeFrameLen v) := rfl

@[simp] theorem writeReg_frame (k : Nat) (v : Word) (s : State) :
    writeReg (.frame k) v s = .next (s.writeFrameWord k v) := rfl

/-- What a register write can do: leave the block alone, run a command or report an illegal one, or write CTRL,
FRAME_LEN or a window word (R54). -/
theorem writeReg_cases (r : Reg) (v : Word) (s : State) :
    (writeReg r v s = .next s) ∨
    (r = .ctrl ∧ writeReg r v s = .next (s.setGateEn (v.getLsbD 0))) ∨
    (r = .frameLen ∧ writeReg r v s = .next (s.writeFrameLen v)) ∨
    (∃ k, r = .frame k ∧ writeReg r v s = .next (s.writeFrameWord k v)) ∨
    (∃ i, r = .cmd ∧ decodeWord v = .ok i ∧ writeReg r v s = exec i s) ∨
    (∃ e, r = .cmd ∧ decodeWord v = .error e ∧
      writeReg r v s = .next (s.setErr CmdError.illegalCommand.code)) := by
  cases r with
  | ctrl => exact .inr (.inl ⟨rfl, rfl⟩)
  | frameLen => exact .inr (.inr (.inl ⟨rfl, rfl⟩))
  | frame k => exact .inr (.inr (.inr (.inl ⟨k, rfl, rfl⟩)))
  | cmd =>
    cases h : decodeWord v with
    | ok i => exact .inr (.inr (.inr (.inr (.inl ⟨i, rfl, rfl, cmdWrite_ok h s⟩))))
    | error e => exact .inr (.inr (.inr (.inr (.inr ⟨e, rfl, rfl, cmdWrite_error h s⟩))))
  | _ => exact .inl rfl

end Machine

end Sys2Proof
end

