-- ==== Sys2Proof/Laws/PerInstr.lean ====
section
/-! SUPPORT. Facts about every command as syntax, one lemma per constructor. -/

namespace Sys2Proof.Laws.CommandWord

/-- A command's word has RSVD 0 and an OP from 1 to 4 (R70, R72), and the command has nothing ill formed. -/
def Statement (i : Instr) : Prop :=
  rsvdField (encode i) = 0 ∧ 1 ≤ (opField (encode i)).toNat ∧ (opField (encode i)).toNat ≤ 4 ∧ i.wf = true

theorem verify : Statement .verify := by unfold Statement; decide

theorem gen : Statement .gen := by unfold Statement; decide

theorem decDmm : Statement .decDmm := by unfold Statement; decide

theorem decLoad : Statement .decLoad := by unfold Statement; decide

end Sys2Proof.Laws.CommandWord
end

