-- ==== Sys2Proof/Laws/Run.lean ====
section
/-! SUPPORT. Runs of a machine, one step at a time. -/

namespace Sys2Proof.Machine

theorem run_zero (M : Host.Core) (s : M.State) : M.run 0 s = .next s := rfl

/-- A run whose first step answers `t` goes on from `t`. -/
theorem run_succ_of_step {M : Host.Core} {s t : M.State} (n : Nat) (h : M.step s = .next t) :
    M.run (n + 1) s = M.run n t := by
  simp [Host.Core.run, h]

end Sys2Proof.Machine
end

