-- ==== Sys2Proof/Tests/Slice0.lean ====
section
/-! SUPPORT. Small tests, expected values from `spec/95_test_vectors.md`, and witnesses that the hypotheses of the statements can be met together. -/

namespace Sys2Proof.Tests

open Sys2Proof.Machine

/-! ## Helpers -/

/-- The reset state with a frame loaded, its length set, and the gate as given. -/
def loaded (gate : Bool) (bytes : List Byte) : State :=
  { State.reset with
    ctrl := { gateEn := gate }
    frameLen := BitVec.ofNat 8 bytes.length
    frame := bytes.zipIdx.map fun c => (c.2, c.1) }

/-- What an outcome's next state shows. -/
def see {α : Type} (f : State → α) (o : Host.Outcome State Fault Refusal) : Option α :=
  match o with
  | .next t => some (f t)
  | .fault _ => none
  | .refused _ => none

theorem next_of_see {α : Type} {f : State → α} {o : Host.Outcome State Fault Refusal} {x : α} (h : see f o = some x) :
    ∃ t, o = .next t ∧ f t = x := by
  cases o with
  | next t => exact ⟨t, rfl, by simpa [see] using h⟩
  | fault r => simp [see] at h
  | refused r => simp [see] at h

/-- One access made in a state. -/
def after (a : Access) (s : State) : Host.Outcome State Fault Refusal := step (s.withAccesses [a])

/-- Vector M1's frame. -/
def m1 : List Byte :=
  [0xAF, 0x05, 0x03, 0x09, 0x01, 0, 0, 0, 0, 0x10, 0x34, 0x12, 0xCD, 0xAB, 0x01, 0x00, 0x70]

/-- Vector M3's frame. -/
def m3 : List Byte :=
  [0xAF, 0x05, 0x03, 0x09, 0x01, 0, 0, 0, 0, 0x0F, 0, 0, 0, 0, 0xFF, 0xFF, 0x32]

/-- Vector L1's frame. -/
def l1 : List Byte :=
  [0xAF, 0x07, 0x03, 0x08, 0x01, 0xA3, 0x01, 0xA4, 0x70, 0x45, 0x41, 0x00, 0x00, 0x80, 0x3F]
  ++ [0x10, 0x0E, 0x00, 0x00, 0x00, 0x00, 0xCC, 0x41, 0x00, 0x00, 0x60, 0x40, 0x76]

/-- Vector L2's frame. -/
def l2 : List Byte :=
  [0xAF, 0x07, 0x03, 0x08, 0x00, 0x0F, 0x00, 0x01, 0x00, 0xC0, 0x7F, 0x00, 0x00, 0x00, 0x80]
  ++ [0xFF, 0xFF, 0xFF, 0xFF, 0x01, 0x00, 0x00, 0x00, 0x00, 0x00, 0x80, 0x7F, 0x74]

/-- Vector S11's frame, which sums to 0. -/
def s11 : List Byte := [0xAF, 0x05, 0x03, 0x09, 0x01, 0x3F]

/-! ## Decoding: words written bit by bit from R70 and R72 -/

theorem test_decode_verify : decodeWord 0b0000000000000000000000000000_0001#32 = .ok .verify := by decide

theorem test_decode_gen : decodeWord 0b0000000000000000000000000000_0010#32 = .ok .gen := by decide

theorem test_decode_decDmm : decodeWord 0b0000000000000000000000000000_0011#32 = .ok .decDmm := by decide

theorem test_decode_decLoad : decodeWord 0b0000000000000000000000000000_0100#32 = .ok .decLoad := by decide

/-- Vectors X1 to X3: OP 0, 5 and 15. -/
theorem test_decode_illegal_op : decodeWord 0x00000000 = .error (.illegalOp 0) ∧
    decodeWord 0x00000005 = .error (.illegalOp 5) ∧ decodeWord 0x0000000F = .error (.illegalOp 15) := by decide

/-- Vectors X4 and X5: RSVD bit 4 and bit 31. -/
theorem test_decode_reserved : decodeWord 0x00000011 = .error .reservedBits ∧
    decodeWord 0x80000003 = .error .reservedBits := by decide

theorem test_decode_bytes : decode [0x03, 0, 0, 0, 0xAA] = .ok (.decDmm, [0xAA]) ∧
    decode [0, 0, 0, 0x03] = .error .reservedBits ∧ decode [0x03, 0, 0] = .error .truncated := by decide

theorem test_decodeTableWord : decodeTableWord 32 4 = some .decLoad ∧ decodeTableWord 32 0x13 = none := by decide

/-! ## Well-formedness: one ill-formed term for each check -/

theorem test_wf_window_index : (Reg.frame 8).wf = false ∧ (Reg.frame 7).wf = true := by decide

theorem test_wf_loadFrame_length : (HostLine.loadFrame (List.replicate 33 0)).wf = false ∧
    (HostLine.loadFrame (List.replicate 32 0)).wf = true := by decide

theorem test_wf_gate_value : (HostLine.setGate 2).wf = false ∧ (HostLine.setGate 1).wf = true := by decide

theorem test_wf_line_register : (HostLine.wr (.frame 8) 0).wf = false ∧ (HostLine.rd (.frame 8)).wf = false := by decide

/-! ## The commands, at most two vectors each -/

/-- Vector S8: the source's wrong literal fails. -/
theorem test_verify_fails : see (fun t => (t.readReg .csum, t.readReg .status))
    (exec .verify (loaded true [0xAF, 0x05, 0x03, 0x09, 0x01, 0xCB])) = some (0x0000748C, 0x00) := by decide

/-- Vector S3: the empty frame verifies. -/
theorem test_verify_empty : see (fun t => (t.readReg .csum, t.readReg .status)) (exec .verify State.reset)
    = some (0x00000000, 0x10) := by decide

/-- Vector S1, with conflict C1's corrected byte. -/
theorem test_gen_appends : see (fun t => (t.readReg .csum, t.readReg .frameLen, t.frameBytes))
    (exec .gen (loaded true [0xAF, 0x05, 0x03, 0x09, 0x01])) = some (0x00003FC1, 6, s11) := by decide

/-- Vector S7: the full buffer. -/
theorem test_gen_full : see (fun t => (t.readReg .csum, t.readReg .frameLen, t.readReg .status))
    (exec .gen (loaded true (List.replicate 32 0xFF))) = some (0, 32, 4) := by decide

/-- Vector M3: the smallest exponent and the largest mantissa. -/
theorem test_decDmm_minimum_exponent : see (fun t => (t.dmm, t.readReg .status)) (exec .decDmm (loaded true m3))
    = some ({ expb := 0x0F, unit := 0, exp := 0xFFFFFFF9, mant := 65535, raw1 := 0, raw2 := 0 }, 0x20) := by decide

/-- Vector M12: length before gate. -/
theorem test_decDmm_short_before_sum : see (fun t => t.readReg .status)
    (exec .decDmm (loaded true (1 :: List.replicate 15 0))) = some 0x01 := by decide

/-- Vector L1. -/
theorem test_decLoad_fields : see (fun t => t.load) (exec .decLoad (loaded true l1))
    = some { len := 28, unk1 := 1, mode := 3, fan := 10, runflag := 1, volt := 0x414570A4, curr := 0x3F800000,
             runt := 0x00000E10, temp := 0x41CC0000, setp := 0x40600000 } := by decide

/-- Vector L2: a NaN, minus zero, minus one, a subnormal and an infinity pass through. -/
theorem test_decLoad_special_words : see (fun t => (t.load.volt, t.load.curr, t.load.runt, t.load.temp, t.load.setp))
    (exec .decLoad (loaded true l2)) = some (0x7FC00001, 0x80000000, 0xFFFFFFFF, 0x00000001, 0x7F800000) := by decide

/-! ## What the result words mean -/

/-- Vector M1's value is 1000 and M2's is 10. -/
theorem test_dval : dval 1 3 = 1000 ∧ dval 100 (-1) = 10 := by decide

/-- Items G3 and vector L2: 25.5, the smallest subnormal, and the signed zero. -/
theorem test_f32val : f32val 0x41CC0000 = .finite false (mkRat 51 2) ∧
    f32val 0x00000001 = .finite false (mkRat 1 (2 ^ 149)) ∧ f32val 0x80000000 = .finite true 0 ∧
    f32val 0x7F800000 = .infinity false ∧ f32val 0x7FC00001 = .nan := by decide

/-! ## The bus -/

/-- Vectors B2 and B4: a length above the buffer is ignored, bits 31:8 too. -/
theorem test_write_frameLen : see (fun t => t.frameLen) (after (.write 0x0C 4 0x00000121) (loaded true [1, 2, 3, 4, 5])) = some 5 ∧
    see (fun t => t.frameLen) (after (.write 0x0C 4 32) State.reset) = some 32 := by decide

/-- Vectors B6 and B7. -/
theorem test_write_status_and_ctrl : see (fun t => t.readReg .status) (after (.write 0x08 4 0xFFFFFFFF) State.reset) = some 0 ∧
    see (fun t => t.readReg .ctrl) (after (.write 0x00 4 0xFFFFFFFE) State.reset) = some 0 := by decide

/-- Vectors B8 and B9. -/
theorem test_bus_error : see (fun t => (t.response, t.frame)) (after (.write 0x80 1 7) State.reset)
      = some (some { busError := true, data := none }, []) ∧
    see (fun t => t.response) (after (.read 0x02 4) State.reset)
      = some (some { busError := true, data := some 0 }) := by decide

/-- Vector B11. -/
theorem test_window_write : see (fun t => (t.frame, t.readReg (.frame 1), t.frameLen)) (after (.write 0x84 4 0x44332211) State.reset)
    = some ([(4, 0x11), (5, 0x22), (6, 0x33), (7, 0x44)], 0x44332211, 0) := by decide

/-- Vector X2 as a step, from a state whose next event is a placed word. -/
theorem test_step_illegal : see (fun t => t.readReg .status) (step (State.reset.withFetchWord 32 5)) = some 3 := by decide

/-! ## Host programs -/

/-- The first lines of program P1 and of P3, as their text stands in the spec. -/
theorem test_parse_program : parseProgram
    ["LOADFRAME AF 05 03 09 01     ; W 0x80 0x090305AF", "GEN", "", "RD FRAME[1]  ; R 0x84", "WR FRAME[3], 0x00650000", "SETGATE 0"]
    = some [.loadFrame [0xAF, 0x05, 0x03, 0x09, 0x01], .command .gen, .rd (.frame 1), .wr (.frame 3) 0x00650000, .setGate 0] := by
  decide

/-- R77's expansion. -/
theorem test_expand_loadFrame : (HostLine.loadFrame [0xAF, 0x05, 0x03, 0x09, 0x01]).expand =
    [.write 0x80 4 0x090305AF, .write 0x84 4 0x00000001, .write 0x0C 4 5] := by decide

/-- R75's values: hexadecimal with its prefix, decimal without, and no digit beyond the base. -/
theorem test_value : ["0x090305AF".toList, "0xaF".toList, "18".toList].map value? = [some 0x090305AF, some 175, some 18] ∧
    ["0xG".toList, "1A".toList, "0x".toList, "4294967296".toList].map value? = [none, none, none, none] := by decide

theorem test_parse_refuses : parseProgram ["WR CTRL 1"] = none ∧ parseProgram ["LOADFRAME 1"] = none ∧
    parseProgram ["RD NOWHERE"] = none ∧ (parseProgram ["SETGATE 2"]).bind assemble = none := by decide

/-! ## Witnesses: the hypotheses of the statements, met -/

/-- StepRunsTheCommandWritten, EveryCommandReportsItsFirstFailedCheck. -/
theorem wit_cmd_pending : ({ loaded true m1 with pending := [.access (.write 0x04 4 3)] } : State).pending
    = .access (.write 0x04 4 3) :: [] ∧ decodeWord 3 = .ok .decDmm := by decide

/-- IllegalCommandSetsErrOnly: each clause at a boundary. -/
theorem wit_illegal_words : (0x00000010#32).toNat % 16 = 0 ∧ 5 ≤ (0x00000005#32).toNat % 16 ∧
    (0x00000014#32).toNat / 16 ≠ 0 ∧ (0x80000001#32).toNat / 16 ≠ 0 ∧
    ({ State.reset with pending := [.access (.write 0x04 4 5)] } : State).pending = .access (.write 0x04 4 5) :: [] := by
  decide

/-- BlockNeverActsAlone. -/
theorem wit_idle : (loaded true m1).pending = [] := rfl

/-- GenAppendsOrReportsFull, GenThenVerifySucceeds, GenFrame, AccessesButGenAreIdempotent: LEN 0, 30, 31 and 32. -/
theorem wit_lengths : State.reset.frameLen.toNat < 32 ∧ (loaded true (List.replicate 30 1)).frameLen.toNat + 2 ≤ 32 ∧
    (loaded true (List.replicate 31 1)).frameLen.toNat < 32 ∧ (loaded true (List.replicate 32 1)).frameLen.toNat = 32 := by
  decide

/-- GenFrame. -/
theorem wit_gen_next : ∃ t, exec .gen (loaded true [0xFF, 0x01]) = .next t ∧ t.frameBytes = [0xFF, 0x01, 0x00] :=
  next_of_see (by decide)

/-- ChecksumByteMakesSumZero: the third and fourth clauses. -/
theorem wit_checksum : modSum [0xFF, 0x01] = 0 ∧ modSum ([0xAF, 0x05, 0x03, 0x09, 0x01] ++ [0x3F]) = 0 := by decide

/-- SingleByteCorruptionDetected: a frame that verifies (vectors S11 to S13), a changed byte, a cancelling pair, a
reordering. -/
theorem wit_corruption : (∃ t, exec .verify (loaded true s11) = .next t ∧ t.status.csumOk = true) ∧
    2 < (loaded true s11).frameLen.toNat ∧ (0x04 : Byte) ≠ (loaded true s11).frameByte 2 ∧
    (0x06 : Byte) + 0x02 = (loaded true s11).frameByte 1 + (loaded true s11).frameByte 2 ∧
    (loaded true s11.reverse).frameBytes.Perm (loaded true s11).frameBytes :=
  ⟨next_of_see (by decide), by decide, by decide, by decide, by decide⟩

/-- DecDmmFollowsItsRule, GateRejectsFramesThatDoNotSumToZero: each clause, at 16 and 17 bytes. -/
theorem wit_decDmm_clauses : (loaded true (m1.take 16)).frameLen.toNat < 17 ∧
    (17 ≤ (loaded true (m1.take 16 ++ [0x71])).frameLen.toNat ∧ modSum (loaded true (m1.take 16 ++ [0x71])).frameBytes ≠ 0) ∧
    (17 ≤ (loaded true m1).frameLen.toNat ∧ modSum (loaded true m1).frameBytes = 0) ∧
    (17 ≤ (loaded false (m1.take 16 ++ [0x71])).frameLen.toNat ∧ (loaded false (m1.take 16 ++ [0x71])).ctrl.gateEn = false) := by
  decide

/-- DecLoadFollowsItsRule, GateRejectsFramesThatDoNotSumToZero: each clause, at 26, 27 and 28 bytes. -/
theorem wit_decLoad_clauses : (loaded true (l1.take 26)).frameLen.toNat < 27 ∧
    (27 ≤ (loaded true (l1.take 27)).frameLen.toNat ∧ modSum (loaded true (l1.take 27)).frameBytes ≠ 0) ∧
    (27 ≤ (loaded true l1).frameLen.toNat ∧ modSum (loaded true l1).frameBytes = 0) ∧
    (27 ≤ (loaded false (l1.take 27)).frameLen.toNat ∧ (loaded false (l1.take 27)).ctrl.gateEn = false) := by decide

/-- ExponentByteDecodes, MultimeterValueIsExact, CheckAndDecodeCommandsFrame: a decode that succeeds, its mantissa not
0, and one whose mantissa is 0. -/
theorem wit_decDmm_succeeds : (∃ t, exec .decDmm (loaded true m1) = .next t ∧
      (t.status.err, t.status.dmmValid, t.dmm.mant) = (0, true, 1)) ∧
    (∃ t, exec .decDmm (loaded true (List.replicate 17 0)) = .next t ∧
      (t.status.err, t.status.dmmValid, t.dmm.mant) = (0, true, 0)) :=
  ⟨next_of_see (by decide), next_of_see (by decide)⟩

/-- ExponentByteDecodes: two bytes that differ in bit 0 only. -/
theorem wit_exponent_bytes : (0x02 : Byte).extractLsb' 1 7 = (0x03 : Byte).extractLsb' 1 7 ∧ (0x02 : Byte) ≠ 0x03 := by decide

/-- Binary32WordsDenoteTheirValues: exponent fields 0, 1, 254 and 255, the last with fraction 0 and not. -/
theorem wit_binary32_fields : (0x807FFFFF#32).toNat / 2 ^ 23 % 256 = 0 ∧ (0x00800000#32).toNat / 2 ^ 23 % 256 = 1 ∧
    (0x7F7FFFFF#32).toNat / 2 ^ 23 % 256 = 254 ∧
    ((0xFF800000#32).toNat / 2 ^ 23 % 256 = 255 ∧ (0xFF800000#32).toNat % 2 ^ 23 = 0) ∧
    ((0x7FC00001#32).toNat / 2 ^ 23 % 256 = 255 ∧ (0x7FC00001#32).toNat % 2 ^ 23 ≠ 0) := by decide

/-- FloatWordsRoundTrip: a frame that decodes, with a word at each of the four offsets. -/
theorem wit_float_words : 27 ≤ (loaded true l2).frameLen.toNat ∧ modSum (loaded true l2).frameBytes = 0 ∧
    (∀ k < 4, (loaded true l2).frameByte (7 + k) = byteOfWord 0x7FC00001 k) ∧
    (∀ k < 4, (loaded true l2).frameByte (11 + k) = byteOfWord 0x80000000 k) ∧
    (∀ k < 4, (loaded true l2).frameByte (19 + k) = byteOfWord 0x00000001 k) ∧
    (∀ k < 4, (loaded true l2).frameByte (23 + k) = byteOfWord 0x7F800000 k) := by decide

/-- RunTimeIsSignedLittleEndian, CheckAndDecodeCommandsFrame: a decode that succeeds, its run time negative, and one
whose run time is positive. -/
theorem wit_decLoad_succeeds : (∃ t, exec .decLoad (loaded true l2) = .next t ∧ (t.status.err, s32 t.load.runt) = (0, -1)) ∧
    (∃ t, exec .decLoad (loaded true l1) = .next t ∧ (t.status.err, s32 t.load.runt) = (0, 3600)) :=
  ⟨next_of_see (by decide), next_of_see (by decide)⟩

/-- CheckAndDecodeCommandsFrame: VERIFY. -/
theorem wit_verify_next : ∃ t, exec .verify (loaded true m1) = .next t ∧ t.status.csumOk = true := next_of_see (by decide)

/-- DecDmmIgnoresUnreadBytes: two frames that differ in byte 0, byte 16 and length only, both passing the gate, and with
the gate off. -/
theorem wit_decDmm_unread_bytes :
    let s := loaded true m1
    let s' := loaded true (0xAE :: m1.tail.take 15 ++ [0x71, 0x00])
    s'.ctrl = s.ctrl ∧ s'.dmm = s.dmm ∧ (s'.frameLen.toNat < 17 ↔ s.frameLen.toNat < 17) ∧
      (∀ i, i < 16 → 9 ≤ i → s'.frameByte i = s.frameByte i) ∧
      (modSum s'.frameBytes = 0 ↔ modSum s.frameBytes = 0) ∧ s'.frameBytes ≠ s.frameBytes ∧
      (loaded false m1).ctrl.gateEn = false := by decide

/-- DecLoadIgnoresUnreadBytes: two frames that differ in byte 0, byte 27 and length only (vector L7 among them). -/
theorem wit_decLoad_unread_bytes :
    let s := loaded true l1
    let s' := loaded true (0xAE :: l1.tail.take 26 ++ [0x77, 0x00, 0x00, 0x00, 0x00])
    s'.ctrl = s.ctrl ∧ s'.load = s.load ∧ (s'.frameLen.toNat < 27 ↔ s.frameLen.toNat < 27) ∧
      (∀ i, i < 27 → 4 ≤ i → s'.frameByte i = s.frameByte i) ∧
      (modSum s'.frameBytes = 0 ↔ modSum s.frameBytes = 0) ∧ s'.frameBytes ≠ s.frameBytes := by decide

/-- BytesBeyondLenReachNoResult: two states that differ in a byte at LEN only. -/
theorem wit_bytes_beyond_len :
    let s := loaded true s11
    let s' := s.setFrameByte 6 0x55
    s'.ctrl = s.ctrl ∧ s'.status = s.status ∧ s'.frameLen = s.frameLen ∧ s'.csum = s.csum ∧ s'.dmm = s.dmm ∧
      s'.load = s.load ∧ (∀ j < s.frameLen.toNat, s'.frameByte j = s.frameByte j) ∧ s'.frame ≠ s.frame := by decide

/-- ErrorsRecordOnlyTheirCode: an error of each kind. -/
theorem wit_errors : (∃ t, exec .decDmm (loaded true s11) = .next t ∧ t.status.err = 1) ∧
    (∃ t, exec .decLoad (loaded true (l1.take 27)) = .next t ∧ t.status.err = 2) ∧
    (∃ t, exec .gen (loaded true (List.replicate 32 0)) = .next t ∧ t.status.err = 4) ∧
    (∀ i, (0x00000014 : Word) ≠ encode i) ∧ (∃ t, cmdWrite 0x00000014 (loaded true m1) = .next t ∧ t.status.err = 3) :=
  ⟨next_of_see (by decide), next_of_see (by decide), next_of_see (by decide), fun i => by cases i <;> decide,
    next_of_see (by decide)⟩

/-- BadAccessIsABusErrorAndChangesNothing: each unmapped range at its ends, which no mapped offset meets. -/
theorem wit_bad_offsets : (∀ off ∈ ([0x14, 0x1C, 0x38, 0x3C, 0x68, 0x7C, 0xA0, 0xFC] : List Offset), regAt off = none ∧ off.toNat % 4 = 0) ∧
    (∀ off ∈ ([0x10, 0x20, 0x34, 0x40, 0x64, 0x80, 0x9C] : List Offset), (regAt off).isSome = true) ∧
    ({ State.reset with pending := [.access (.read 0xA0 4)] } : State).pending = .access (.read 0xA0 4) :: [] := by decide

/-- ReadsReturnRegistersAndChangeNothing, WritesDoWhatTheMapSays, FrameWindowWriteSetsFourBytes,
FrameWindowWriteThenReadReturnsTheWord: the first and the last window word, and a length of 32, 33 and 256. -/
theorem wit_window_and_length : (BitVec.ofNat 8 (0x80 + 4 * 0)).toNat = 0x80 ∧ (BitVec.ofNat 8 (0x80 + 4 * 7)).toNat = 0x9C ∧
    (0x9C : Offset).toNat = 0x80 + 4 * 7 ∧ (0x20 : Word).toNat % 256 ≤ 32 ∧ 32 < (0x21 : Word).toNat % 256 ∧
    (0x100 : Word).toNat % 256 ≤ 32 := by decide

/-- The same statements: pending accesses of each kind. -/
theorem wit_pending_accesses :
    let s := State.reset.withAccesses [.write 0x9C 4 0xDEADBEEF, .read 0x9C 4, .read 0x08 4, .write 0x0C 4 32]
    s.pending = .access (.write (BitVec.ofNat 8 (0x80 + 4 * 7)) 4 0xDEADBEEF)
      :: .access (.read (BitVec.ofNat 8 (0x80 + 4 * 7)) 4) :: [.access (.read 0x08 4), .access (.write 0x0C 4 32)] := by decide

/-- AccessesButGenAreIdempotent: an access that is no GEN and answers. -/
theorem wit_access_not_gen : (Access.write 0x04 4 1 : Access) ≠ .write 0x04 4 0x00000002 ∧
    ∃ t, access (.write 0x04 4 1) (loaded true m1) = .next t ∧ t.status.csumOk = true :=
  ⟨by decide, next_of_see (by decide)⟩

/-- ResetEventRestoresEveryRegister: a reset that cuts an access. -/
theorem wit_reset_pending : ({ loaded true m1 with pending := [.reset [.write 0x04 4 3]] } : State).pending
    = .reset [.write 0x04 4 3] :: [] := by decide

/-- FlagsAndBanksHaveOneWriter: for each clause a step that changes what the clause is about, and is no reset. -/
theorem wit_flag_writers :
    (∃ t, after (.write 0x04 4 1) (loaded true m3) = .next t ∧ (t.status.csumOk != (loaded true m3).status.csumOk) = true) ∧
    (∃ t, after (.write 0x04 4 2) (loaded true [1]) = .next t ∧ (t.csum != (loaded true [1]).csum) = true) ∧
    (∃ t, after (.write 0x04 4 3) (loaded true m3) = .next t ∧
      (t.status.dmmValid != (loaded true m3).status.dmmValid && t.dmm != (loaded true m3).dmm) = true) ∧
    (∃ t, after (.write 0x04 4 4) (loaded true l1) = .next t ∧
      (t.status.ldValid != (loaded true l1).status.ldValid && t.load != (loaded true l1).load) = true) ∧
    (∃ t, after (.write 0x04 4 5) (loaded true m3) = .next t ∧ (t.status.err != (loaded true m3).status.err) = true) ∧
    (∀ lost rest, ((loaded true m3).withAccesses [.write 0x04 4 3]).pending ≠ .reset lost :: rest) :=
  ⟨next_of_see (by decide), next_of_see (by decide), next_of_see (by decide), next_of_see (by decide),
    next_of_see (by decide), fun _ _ h => by cases h⟩

/-- GateLenAndFrameChangeOnlyByTheirWriters: for each clause a step that changes what the clause is about. -/
theorem wit_gate_len_frame_writers :
    (∃ t, after (.write 0x00 4 0) (loaded true m3) = .next t ∧ (t.ctrl != (loaded true m3).ctrl) = true) ∧
    (∃ t, after (.write 0x0C 4 4) (loaded true m3) = .next t ∧ (t.frameLen != (loaded true m3).frameLen) = true) ∧
    (∃ t, after (.write 0x88 4 0xFFFFFFFF) (loaded true m3) = .next t ∧ (t.frameByte 9 != (loaded true m3).frameByte 9) = true) ∧
    (∃ t, after (.write 0x04 4 2) ((loaded true [1]).setFrameByte 1 0) = .next t ∧
      (t.frameByte 1 != ((loaded true [1]).setFrameByte 1 0).frameByte 1 && t.frameLen != (1 : Byte)) = true) :=
  ⟨next_of_see (by decide), next_of_see (by decide), next_of_see (by decide), next_of_see (by decide)⟩

/-- A state with both banks written and LEN 32 that meets the invariant: EveryStepKeepsTheInvariant,
RunsCompleteAndStayGood, ExponentRegisterStaysInRange. -/
theorem wit_invariant : State.Inv { loaded true (l1 ++ [0, 0, 0, 0]) with
    status := { err := 4, csumOk := true, dmmValid := true, ldValid := true }
    csum := { sum := 0xC1, chk := 0x3F }
    dmm := { expb := 0xF1, unit := 15, exp := 45, mant := 1, raw1 := 2, raw2 := 3 }
    load := { State.reset.load with len := 32 } } := by
  refine ⟨by decide, by decide, by decide, by decide, ⟨by decide, by decide⟩, by decide, by decide⟩

/-- LoadFrameLoadsTheFrame: 32 bytes pending, and 33 bytes. -/
theorem wit_loadFrame : (List.replicate 32 (0xA5 : Byte)).length ≤ 32 ∧ 32 < (List.replicate 33 (0xA5 : Byte)).length ∧
    (loaded true m1 |>.withAccesses (HostLine.loadFrame (List.replicate 32 0xA5)).expand).pending
      = (HostLine.loadFrame (List.replicate 32 0xA5)).expand.map .access ++ [] := by decide

end Sys2Proof.Tests
end

section
/-! The scope family (`00_scope.md`): the idle step (R16), the frame helpers (R11), the decimal value (R13) and the
binary32 reading (R12). -/

namespace Sys2Proof.Machine

/-- Both branches of `scaled` are one rational. It needs no `base ≠ 0`: with a negative exponent `mkRat m 0` and
`0 ^ e` are both 0. -/
theorem scaled_eq (base : Nat) (m e : Int) : scaled base m e = (m : ℚ) * (base : ℚ) ^ e := by
  unfold scaled
  split
  · rename_i he
    rw [Int.cast_mul, Int.cast_pow, Int.cast_natCast, ← zpow_natCast, Int.toNat_of_nonneg he]
  · have he : 0 ≤ -e := by omega
    rw [Rat.mkRat_eq_div, Nat.cast_pow, ← zpow_natCast, Int.toNat_of_nonneg he, zpow_neg, div_inv_eq_mul]

theorem dval_eq (m e : Int) : dval m e = (m : ℚ) * (10 : ℚ) ^ e := by
  rw [dval, scaled_eq, Nat.cast_ofNat]

/-- E, bits 30:23 of a binary32 word, as a number (R12). -/
theorem f32_exponent_toNat (w : Word) : (w.extractLsb' 23 8).toNat = w.toNat / 2 ^ 23 % 256 := by
  rw [BitVec.extractLsb'_toNat, Nat.shiftRight_eq_div_pow]

/-- F, bits 22:0 of a binary32 word, as a number (R12). -/
theorem f32_fraction_toNat (w : Word) : (w.extractLsb' 0 23).toNat = w.toNat % 2 ^ 23 := by
  rw [BitVec.extractLsb'_toNat, Nat.shiftRight_zero]

/-- The binary32 reading with its fields as numbers and its finite values as products (R12). -/
theorem f32val_eq (w : Word) :
    f32val w =
      let sign : ℚ := if w.getLsbD 31 then -1 else 1
      let e : ℕ := w.toNat / 2 ^ 23 % 256
      let f : ℕ := w.toNat % 2 ^ 23
      if e = 0 then .finite (w.getLsbD 31) (sign * f * (2 : ℚ) ^ (-149 : ℤ))
      else if e < 255 then .finite (w.getLsbD 31) (sign * (2 ^ 23 + f) * (2 : ℚ) ^ ((e : ℤ) - 150))
      else if f = 0 then .infinity (w.getLsbD 31)
      else .nan := by
  simp only [f32val, f32_exponent_toNat, f32_fraction_toNat, scaled_eq, Int.cast_mul, Int.cast_add, Int.cast_pow,
    Int.cast_ite, Int.cast_neg, Int.cast_one, Int.cast_ofNat, Int.cast_natCast, Nat.cast_add, Nat.cast_pow,
    Nat.cast_ofNat]

/-- Settles O8: the step's equation for an idle host. -/
theorem blockNeverActsAlone : Obligations.BlockNeverActsAlone := fun _ h => step_of_idle h

/-- Settles O23: the byte sum as a sum over the indices; `le16` and `le32` by their equations as numbers, which hold
because the bytes' sum stays below the width. -/
theorem frameHelpersAreTheirFormulas : Obligations.FrameHelpersAreTheirFormulas := by
  intro s i n
  refine ⟨rfl, ?_, le16_toNat s i, le32_toNat s i⟩
  rw [State.sum8, byteSum_eq_sum, List.map_map]
  rfl

/-- Settles O19: `dval` is `scaled` at base ten. -/
theorem decimalValueIsMantissaTimesPowerOfTen : Obligations.DecimalValueIsMantissaTimesPowerOfTen := dval_eq

/-- Settles O20: each class of exponent and fraction takes its own branch of the reading. -/
theorem binary32WordsDenoteTheirValues : Obligations.Binary32WordsDenoteTheirValues := by
  intro w neg e f sign
  rw [f32val_eq]
  refine ⟨fun he => if_pos he, fun h1 h254 => ?_, fun he hf => ?_, fun he hf => ?_⟩
  · rw [if_neg (by omega), if_pos (by omega)]
  · rw [if_neg (by omega), if_neg (by omega), if_pos hf]
  · rw [if_neg (by omega), if_neg (by omega), if_neg hf]

end Sys2Proof.Machine
end

section
/-! What commands and steps can do, each said once: `Executes` has one constructor per path of a command, `StepsTo` one
per kind of step. The state family's statements are case splits over these two. -/

namespace Sys2Proof.Machine

/-- The state each command leaves, one constructor per path of its rule (R101, R102, R121, R141). -/
inductive Executes (s : State) : Instr → State → Prop
  | verify : Executes s .verify
      (((s.setCsum (BitVec.ofNat 8 (s.sum8 s.len)) (checksumOf (s.sum8 s.len))).setCsumOk
        (sumIsZero (s.sum8 s.len))).setErr errNone)
  | genFull (full : s.len = Config.frameCap) : Executes s .gen (s.setErr CmdError.frameFull.code)
  | genAppends (room : s.len ≠ Config.frameCap) : Executes s .gen
      ((((s.setFrameByte s.len (checksumOf (s.sum8 s.len))).setLen (BitVec.ofNat 8 (s.len + 1))).setCsum
        (BitVec.ofNat 8 (s.sum8 s.len)) (checksumOf (s.sum8 s.len))).setErr errNone)
  | dmmFails (e : CmdError) (fails : s.decodeError? dmmMinLen = some e) :
      Executes s .decDmm ((s.setDmmValid false).setErr e.code)
  | dmmDecodes (passes : s.decodeError? dmmMinLen = none) :
      Executes s .decDmm (((s.setDmm s.dmmFields).setDmmValid true).setErr errNone)
  | loadFails (e : CmdError) (fails : s.decodeError? loadMinLen = some e) :
      Executes s .decLoad ((s.setLdValid false).setErr e.code)
  | loadDecodes (passes : s.decodeError? loadMinLen = none) :
      Executes s .decLoad (((s.setLoad s.loadFields).setLdValid true).setErr errNone)

/-- Each path is what the command answers. -/
theorem Executes.exec_eq {i : Instr} {s t : State} (h : Executes s i t) : exec i s = .next t := by
  cases h with
  | verify => rfl
  | genFull full => exact if_pos full
  | genAppends room => exact if_neg room
  | dmmFails e fails => simp only [exec, execDecDmm, fails, raiseError_eq]
  | dmmDecodes passes => simp only [exec, execDecDmm, passes, complete_eq]
  | loadFails e fails => simp only [exec, execDecLoad, fails, raiseError_eq]
  | loadDecodes passes => simp only [exec, execDecLoad, passes, complete_eq]

/-- Every command takes one of its paths. -/
theorem exists_executes (i : Instr) (s : State) : ∃ t, Executes s i t := by
  cases i with
  | verify => exact ⟨_, .verify⟩
  | gen =>
    by_cases full : s.len = Config.frameCap
    · exact ⟨_, .genFull full⟩
    · exact ⟨_, .genAppends full⟩
  | decDmm =>
    cases checks : s.decodeError? dmmMinLen with
    | some e => exact ⟨_, .dmmFails e checks⟩
    | none => exact ⟨_, .dmmDecodes checks⟩
  | decLoad =>
    cases checks : s.decodeError? loadMinLen with
    | some e => exact ⟨_, .loadFails e checks⟩
    | none => exact ⟨_, .loadDecodes checks⟩

/-- `Executes` is `exec`. -/
theorem executes_iff {i : Instr} {s t : State} : Executes s i t ↔ exec i s = .next t := by
  refine ⟨Executes.exec_eq, fun h => ?_⟩
  obtain ⟨u, hu⟩ := exists_executes i s
  have : u = t := by simpa [hu.exec_eq] using h
  exact this ▸ hu

/-! Which command changes what (R25 to R30, R33). -/

section

variable {i : Instr} {s t : State} (h : Executes s i t)
include h

theorem Executes.eq_verify_of_csumOk_ne (ne : t.status.csumOk ≠ s.status.csumOk) : i = .verify := by
  cases h with
  | verify => rfl
  | _ => exact absurd rfl ne

theorem Executes.eq_verify_or_gen_of_csum_ne (ne : t.csum ≠ s.csum) : i = .verify ∨ i = .gen := by
  cases h with
  | verify => exact .inl rfl
  | genAppends => exact .inr rfl
  | _ => exact absurd rfl ne

theorem Executes.eq_decDmm_of_ne (ne : t.status.dmmValid ≠ s.status.dmmValid ∨ t.dmm ≠ s.dmm) : i = .decDmm := by
  cases h with
  | dmmFails | dmmDecodes => rfl
  | _ => rcases ne with ne | ne <;> exact absurd rfl ne

theorem Executes.eq_decLoad_of_ne (ne : t.status.ldValid ≠ s.status.ldValid ∨ t.load ≠ s.load) : i = .decLoad := by
  cases h with
  | loadFails | loadDecodes => rfl
  | _ => rcases ne with ne | ne <;> exact absurd rfl ne

theorem Executes.eq_gen_of_frameLen_ne (ne : t.frameLen ≠ s.frameLen) : i = .gen := by
  cases h with
  | genAppends => rfl
  | _ => exact absurd rfl ne

/-- The one frame byte a command writes is GEN's, at LEN (R30). -/
theorem Executes.eq_gen_of_frameByte_ne {j : Nat} (ne : t.frameByte j ≠ s.frameByte j) : i = .gen ∧ j = s.len := by
  cases h with
  | genAppends =>
    refine ⟨rfl, ?_⟩
    by_contra hj
    exact ne (frameByte_setFrameByte_other s _ hj)
  | _ => exact absurd rfl ne

end

/-- A word that decodes to a command is that command's word (R72). -/
theorem eq_encode_of_decodeWord {w : Word} {i : Instr} (h : decodeWord w = .ok i) : w = encode i := by
  unfold decodeWord at h
  split at h
  · cases h
  · rename_i hr
    have hr : w.toNat / 16 = 0 := by
      rw [← rsvdField_toNat, Decidable.not_not.mp hr]; rfl
    apply BitVec.eq_of_toNat_eq
    split at h
    case h_5 => cases h
    all_goals
      rename_i ho
      rw [opField_toNat] at ho
      cases h
      simp only [encode, BitVec.toNat_ofNat]
      omega

/-- The state a step leaves, one constructor per kind of step (R16, R52 to R55, R190). A write that is performed is
answered before its register takes it; a read-only register's is answered and no more. -/
inductive StepsTo (s : State) : State → Prop
  | idle (none_sent : s.pending = []) : StepsTo s s
  | reset {lost : List Access} {rest : List HostEvent} (sent : s.pending = .reset lost :: rest) :
      StepsTo s s.sent.resetBlock
  | answer {a : Access} {rest : List HostEvent} (sent : s.pending = .access a :: rest) (r : Response) :
      StepsTo s (s.sent.respond r)
  | ctrl {v : Word} {rest : List HostEvent} (sent : s.pending = .access (.write 0x00 4 v) :: rest) :
      StepsTo s ((s.sent.respond writeDone).setGateEn (v.getLsbD 0))
  | frameLen {v : Word} {rest : List HostEvent} (sent : s.pending = .access (.write 0x0C 4 v) :: rest) :
      StepsTo s ((s.sent.respond writeDone).writeFrameLen v)
  | window {k : Nat} {v : Word} {rest : List HostEvent} (hk : k < Config.frameCap / 4)
      (sent : s.pending = .access (.write (BitVec.ofNat 8 (0x80 + 4 * k)) 4 v) :: rest) :
      StepsTo s ((s.sent.respond writeDone).writeFrameWord k v)
  | command {i : Instr} {t : State} {rest : List HostEvent}
      (sent : s.pending = .access (.write 0x04 4 (encode i)) :: rest) (ran : Executes (s.sent.respond writeDone) i t) :
      StepsTo s t
  | illegal {w : Word} {rest : List HostEvent} {e : DecodeError}
      (sent : s.pending = .access (.write 0x04 4 w) :: rest) (bad : decodeWord w = .error e) :
      StepsTo s ((s.sent.respond writeDone).setErr CmdError.illegalCommand.code)

/-- A write to a register that exists is one of the kinds of step. -/
theorem stepsTo_of_writeReg {r : Reg} {v : Word} {rest : List HostEvent} {s t : State} (hr : r.wf = true)
    (sent : s.pending = .access (.write r.offset 4 v) :: rest)
    (h : writeReg r v (s.sent.respond writeDone) = .next t) : StepsTo s t := by
  rcases writeReg_cases r v (s.sent.respond writeDone) with
    e | ⟨rfl, e⟩ | ⟨rfl, e⟩ | ⟨k, rfl, e⟩ | ⟨i, rfl, hd, e⟩ | ⟨_, rfl, bad, e⟩ <;> rw [e] at h
  · cases h; exact .answer sent _
  · cases h; exact .ctrl sent
  · cases h; exact .frameLen sent
  · cases h; exact .window (of_decide_eq_true hr) sent
  · rw [eq_encode_of_decodeWord hd] at sent
    exact .command sent (executes_iff.mpr h)
  · cases h; exact .illegal sent bad

/-- What `step` answers is one of the kinds of step. -/
theorem stepsTo_of_step {s t : State} (h : step s = .next t) : StepsTo s t := by
  rcases step_cases s with
    ⟨none_sent, e⟩ | ⟨lost, rest, sent, e⟩ | ⟨a, rest, r, sent, e⟩ | ⟨r, v, rest, hr, sent, e⟩ <;> rw [e] at h
  · cases h; exact .idle none_sent
  · cases h; exact .reset sent
  · cases h; exact .answer sent r
  · exact stepsTo_of_writeReg hr sent h

/-- Settles O4: the step's CMD write, whose word is the command's. -/
theorem stepRunsTheCommandWritten : Obligations.StepRunsTheCommandWritten := fun _ _ _ _ sent decoded =>
  (step_of_cmd sent).trans (cmdWrite_ok decoded _)

end Sys2Proof.Machine
end

section
/-! Reset, and the invariant: every operation on the state keeps it, so every path of a command and every kind of
step does. -/

namespace Sys2Proof.Machine

/-- Settles O39: the table row by row. -/
theorem resetStateHasTheTabledValues : Obligations.ResetStateHasTheTabledValues := by
  unfold Obligations.ResetStateHasTheTabledValues
  and_intros
  all_goals (intros; rfl)

/-- Settles O44: at reset the buffer lists no byte and every field is 0. -/
theorem resetMeetsTheInvariant : Obligations.ResetMeetsTheInvariant where
  frame_wf := wf_reset
  len_le := Nat.zero_le _
  err_le := Nat.zero_le _
  csum_chk := by decide
  dmm_ok := ⟨by decide, by decide⟩
  ld_len := .inl rfl
  ld_valid := nofun

theorem CmdError.code_le (e : CmdError) : e.code.toNat ≤ 4 := by cases e <;> decide

theorem loadFields_len_ne_zero {s : State} (h : loadMinLen ≤ s.len) : s.loadFields.len ≠ 0 := fun h0 => by
  rw [show s.len = 0 from congrArg BitVec.toNat h0] at h
  exact absurd h (by decide)

namespace State.Inv

/-- The invariant says nothing of the model's own fields and nothing of the old block. -/
theorem resetBlock (s : State) : s.resetBlock.Inv := { resetMeetsTheInvariant with }

variable {s : State} (h : s.Inv)
include h

theorem sent : s.sent.Inv := { h with }

theorem respond (r : Response) : (s.respond r).Inv := { h with }

theorem setGateEn (b : Bool) : (s.setGateEn b).Inv := { h with }

theorem setCsumOk (b : Bool) : (s.setCsumOk b).Inv := { h with }

theorem setDmmValid (b : Bool) : (s.setDmmValid b).Inv := { h with }

theorem setErr {c : Nibble} (hc : c.toNat ≤ 4) : (s.setErr c).Inv := { h with err_le := hc }

theorem setLdValid {b : Bool} (hb : b = true → s.load.len ≠ 0) : (s.setLdValid b).Inv := { h with ld_valid := hb }

theorem setLen {n : Byte} (hn : n.toNat ≤ Config.frameCap) : (s.setLen n).Inv := { h with len_le := hn }

theorem setFrameByte {i : Nat} (v : Byte) (hi : i < Config.frameCap) : (s.setFrameByte i v).Inv :=
  { h with frame_wf := wf_write v h.frame_wf hi }

/-- SUM and CHK written together for one byte sum keep R27. -/
theorem setCsum {n : Nat} (hn : n < 256) : (s.setCsum (BitVec.ofNat 8 n) (checksumOf n)).Inv :=
  { h with csum_chk := by rw [setCsum_csum, BitVec.toNat_ofNat, Nat.mod_eq_of_lt hn] }

/-- The bank of a frame is made of its byte 9 (R122). -/
theorem setDmm_dmmFields (u : State) : (s.setDmm u.dmmFields).Inv := { h with dmm_ok := ⟨rfl, rfl⟩ }

/-- The bank of a frame that is long enough holds an accepted length (R141). -/
theorem setLoad_loadFields {u : State} (hu : loadMinLen ≤ u.len ∧ u.len ≤ Config.frameCap) :
    (s.setLoad u.loadFields).Inv where
  __ := h
  ld_len := .inr hu
  ld_valid := fun _ => loadFields_len_ne_zero hu.1

theorem writeFrameLen (v : Word) : (s.writeFrameLen v).Inv := by
  unfold State.writeFrameLen
  split
  · exact h.setLen ‹_›
  · exact h

theorem writeFrameWord {k : Nat} (v : Word) (hk : k < Config.frameCap / 4) : (s.writeFrameWord k v).Inv := by
  have hcap : 4 * k + 3 < Config.frameCap := by simp only [Config.frameCap] at hk ⊢; omega
  exact (((h.setFrameByte _ (by omega)).setFrameByte _ (by omega)).setFrameByte _ (by omega)).setFrameByte _ hcap

/-- GEN's append: the byte at LEN, then LEN one more (R102). -/
theorem append (v : Byte) (room : s.len ≠ Config.frameCap) :
    ((s.setFrameByte s.len v).setLen (BitVec.ofNat 8 (s.len + 1))).Inv := by
  have hlt : s.len < Config.frameCap := lt_of_le_of_ne h.len_le room
  refine (h.setFrameByte v hlt).setLen ?_
  rw [BitVec.toNat_ofNat]
  exact (Nat.mod_le _ _).trans hlt

end State.Inv

/-- Every path of every command keeps the invariant. -/
theorem Executes.keeps_inv {i : Instr} {s t : State} (h : Executes s i t) (hs : s.Inv) : t.Inv := by
  have hnone : errNone.toNat ≤ 4 := Nat.zero_le _
  cases h with
  | verify => exact ((hs.setCsum (sum8_lt _ _)).setCsumOk _).setErr hnone
  | genFull => exact hs.setErr (CmdError.code_le _)
  | genAppends room => exact ((hs.append _ room).setCsum (sum8_lt _ _)).setErr hnone
  | dmmFails e => exact (hs.setDmmValid _).setErr e.code_le
  | dmmDecodes => exact ((hs.setDmm_dmmFields s).setDmmValid _).setErr hnone
  | loadFails e => exact (hs.setLdValid (b := false) nofun).setErr e.code_le
  | loadDecodes passes =>
    have hlen : loadMinLen ≤ s.len := (decodeError?_none.mp passes).1
    exact ((hs.setLoad_loadFields ⟨hlen, hs.len_le⟩).setLdValid fun _ => loadFields_len_ne_zero hlen).setErr hnone

/-- Settles O45: the case split over the kinds of step. -/
theorem everyStepKeepsTheInvariant : Obligations.EveryStepKeepsTheInvariant := by
  intro s t hs h
  have hu : (s.sent.respond writeDone).Inv := hs.sent.respond _
  cases stepsTo_of_step h with
  | idle => exact hs
  | reset => exact .resetBlock _
  | answer _ r => exact hs.sent.respond r
  | ctrl => exact hu.setGateEn _
  | frameLen => exact hu.writeFrameLen _
  | window hk => exact hu.writeFrameWord _ hk
  | command _ ran => exact ran.keeps_inv hu
  | illegal => exact hu.setErr (CmdError.code_le _)

end Sys2Proof.Machine
end

section
/-! The DMM exponent register (R28). -/

namespace Sys2Proof.Machine

/-- The exponent of any exponent byte, as the register holds it (R122, R28). -/
theorem dmmExponent_mem (e : Byte) : -7 ≤ dmmExponent e ∧ dmmExponent e ≤ 45 := by
  have := e.isLt
  rw [dmmExponent_eq]
  omega

/-- A word whose signed value fits in 7 bits is the sign extension of 7 bits, so bits 31:6 are copies of its sign. -/
theorem getLsbD_eq_sign_of_toInt {w : Word} (lo : -64 ≤ w.toInt) (hi : w.toInt < 64) {i : Nat} (h6 : 6 ≤ i)
    (h31 : i ≤ 31) : w.getLsbD i = w.getLsbD 31 := by
  have hw : w = (BitVec.ofInt 7 w.toInt).signExtend 32 := by
    rw [BitVec.signExtend, BitVec.toInt_ofInt_eq_self (by decide) lo hi, BitVec.ofInt_toInt]
  have bit : ∀ j, 6 ≤ j → j ≤ 31 → w.getLsbD j = (BitVec.ofInt 7 w.toInt).msb := fun j hj6 hj31 => by
    rw [hw, BitVec.getLsbD_signExtend, ← hw, decide_eq_true (show j < 32 by omega), Bool.true_and]
    split
    · rw [BitVec.msb_eq_getLsbD_last, show j = 6 by omega]
    · rfl
  rw [bit i h6 h31, bit 31 (by decide) (by decide)]

/-- Settles O47: the register holds the exponent of one byte, and -7 to 45 fits in 7 bits. -/
theorem exponentRegisterStaysInRange : Obligations.ExponentRegisterStaysInRange := by
  intro s hs
  obtain ⟨lo, hi⟩ := dmmExponent_mem s.dmm.expb
  have hexp : s.dmm.exp.toInt = dmmExponent s.dmm.expb := by
    rw [hs.dmm_ok.2, BitVec.toInt_ofInt_eq_self (by decide) (by omega) (by omega)]
  rw [← hexp] at lo hi
  exact ⟨lo, hi, fun i => getLsbD_eq_sign_of_toInt (by omega) (by omega)⟩

end Sys2Proof.Machine
end

section
/-! What a command's result depends on: the registers but for STATUS, and the frame bytes below LEN. -/

namespace Sys2Proof.Machine

/-- Two states with the same registers and the same frame, whatever the bytes at or beyond LEN (R30). -/
structure State.SameFrame (s s' : State) : Prop where
  ctrl : s'.ctrl = s.ctrl
  status : s'.status = s.status
  frameLen : s'.frameLen = s.frameLen
  csum : s'.csum = s.csum
  dmm : s'.dmm = s.dmm
  load : s'.load = s.load
  below : ∀ j, j < s.len → s'.frameByte j = s.frameByte j

namespace State.SameFrame

variable {s s' : State} (h : s.SameFrame s')
include h

theorem len : s'.len = s.len := congrArg BitVec.toNat h.frameLen

theorem sum8_len : s'.sum8 s'.len = s.sum8 s.len := by rw [h.len, sum8_congr h.below]

theorem decodeError? (m : Nat) : s'.decodeError? m = s.decodeError? m :=
  decodeError?_congr m h.ctrl h.frameLen h.below

/-- A frame that is long enough holds every byte DEC_DMM reads. -/
theorem dmmFields (hlen : dmmMinLen ≤ s.len) : s'.dmmFields = s.dmmFields :=
  dmmFields_congr fun j _ hj => h.below j (lt_of_lt_of_le (lt_of_le_of_lt hj (by decide)) hlen)

/-- A frame that is long enough holds every byte DEC_LOAD reads. -/
theorem loadFields (hlen : loadMinLen ≤ s.len) : s'.loadFields = s.loadFields :=
  loadFields_congr h.frameLen fun j _ hj => h.below j (lt_of_lt_of_le (lt_of_le_of_lt hj (by decide)) hlen)

theorem setErr (c : Nibble) : (s.setErr c).SameFrame (s'.setErr c) := { h with status := by simp [h.status] }

theorem setCsumOk (b : Bool) : (s.setCsumOk b).SameFrame (s'.setCsumOk b) := { h with status := by simp [h.status] }

theorem setDmmValid (b : Bool) : (s.setDmmValid b).SameFrame (s'.setDmmValid b) :=
  { h with status := by simp [h.status] }

theorem setLdValid (b : Bool) : (s.setLdValid b).SameFrame (s'.setLdValid b) := { h with status := by simp [h.status] }

theorem setCsum (x y : Byte) : (s.setCsum x y).SameFrame (s'.setCsum x y) := { h with csum := rfl }

theorem setDmm (b : DmmBank) : (s.setDmm b).SameFrame (s'.setDmm b) := { h with dmm := rfl }

theorem setLoad (b : LoadBank) : (s.setLoad b).SameFrame (s'.setLoad b) := { h with load := rfl }

/-- GEN's append: the one byte that joins the frame is written in both (R102). -/
theorem append (v : Byte) : ((s.setFrameByte s.len v).setLen (BitVec.ofNat 8 (s.len + 1))).SameFrame
    ((s'.setFrameByte s.len v).setLen (BitVec.ofNat 8 (s.len + 1))) where
  __ := h
  frameLen := rfl
  below := fun j hj => by
    rw [setLen_len, BitVec.toNat_ofNat] at hj
    have hj : j < s.len + 1 := lt_of_lt_of_le hj (Nat.mod_le _ _)
    rw [setLen_frameByte, setLen_frameByte, frameByte_setFrameByte, frameByte_setFrameByte]
    split
    · rfl
    · exact h.below j (by omega)

end State.SameFrame

/-- Both states take the same path, to results with the same registers and the same frame. -/
theorem Executes.sameFrame {i : Instr} {s s' t : State} (h : s.SameFrame s') (run : Executes s i t) :
    ∃ t', Executes s' i t' ∧ t.SameFrame t' := by
  cases run with
  | verify =>
    refine ⟨_, .verify, ?_⟩
    rw [h.sum8_len]
    exact ((h.setCsum _ _).setCsumOk _).setErr _
  | genFull full => exact ⟨_, .genFull (h.len.trans full), h.setErr _⟩
  | genAppends room =>
    refine ⟨_, .genAppends (h.len ▸ room), ?_⟩
    rw [h.sum8_len, h.len]
    exact ((h.append _).setCsum _ _).setErr _
  | dmmFails e fails => exact ⟨_, .dmmFails e ((h.decodeError? _).trans fails), (h.setDmmValid _).setErr _⟩
  | dmmDecodes passes =>
    refine ⟨_, .dmmDecodes ((h.decodeError? _).trans passes), ?_⟩
    rw [h.dmmFields (decodeError?_none.mp passes).1]
    exact ((h.setDmm _).setDmmValid _).setErr _
  | loadFails e fails => exact ⟨_, .loadFails e ((h.decodeError? _).trans fails), (h.setLdValid _).setErr _⟩
  | loadDecodes passes =>
    refine ⟨_, .loadDecodes ((h.decodeError? _).trans passes), ?_⟩
    rw [h.loadFields (decodeError?_none.mp passes).1]
    exact ((h.setLoad _).setLdValid _).setErr _

/-- Settles O26: every command keeps "the same registers and the same frame", and does so for LEN above 32 too. -/
theorem bytesBeyondLenReachNoResult : Obligations.BytesBeyondLenReachNoResult := by
  intro i s s' hctrl hstatus hlen hcsum hdmm hload hbelow
  obtain ⟨t, run⟩ := exists_executes i s
  obtain ⟨t', run', h⟩ := run.sameFrame ⟨hctrl, hstatus, hlen, hcsum, hdmm, hload, hbelow⟩
  exact ⟨t, t', run.exec_eq, run'.exec_eq, h.ctrl, h.status, h.frameLen, h.csum, h.dmm, h.load, fun _ => h.below⟩

/-- The sum does not read STATUS (R11). -/
theorem sum8_with_status (s : State) (st : Status) (n : Nat) : ({ s with status := st } : State).sum8 n = s.sum8 n :=
  sum8_congr fun _ _ => rfl

/-- The decoder checks do not read STATUS (R173). -/
theorem decodeError?_with_status (s : State) (st : Status) (m : Nat) :
    ({ s with status := st } : State).decodeError? m = s.decodeError? m :=
  decodeError?_congr (s := s) m rfl rfl fun _ _ => rfl

/-- What a command leaves in `t'` where STATUS was `st`, beside the `t` it leaves where STATUS was another: its own flag
as in `t`, the flags it does not write as in `st`, and all else as in `t` (R33). -/
structure SameButFlagsKept (i : Instr) (st : Status) (t t' : State) : Prop where
  block : t' = { t with status := t'.status }
  err : t'.status.err = t.status.err
  csumOk : t'.status.csumOk = if i = .verify then t.status.csumOk else st.csumOk
  dmmValid : t'.status.dmmValid = if i = .decDmm then t.status.dmmValid else st.dmmValid
  ldValid : t'.status.ldValid = if i = .decLoad then t.status.ldValid else st.ldValid

/-- Whatever STATUS holds, a command takes the same path. -/
theorem Executes.with_status {i : Instr} {s t : State} (run : Executes s i t) (st : Status) :
    ∃ t', Executes { s with status := st } i t' ∧ SameButFlagsKept i st t t' := by
  have checks := decodeError?_with_status s st
  cases run with
  | verify =>
    refine ⟨_, .verify, ?_⟩
    rw [sum8_with_status s st]
    exact ⟨rfl, rfl, rfl, rfl, rfl⟩
  | genFull full => exact ⟨_, .genFull full, rfl, rfl, rfl, rfl, rfl⟩
  | genAppends room =>
    refine ⟨_, .genAppends room, ?_⟩
    rw [sum8_with_status s st]
    exact ⟨rfl, rfl, rfl, rfl, rfl⟩
  | dmmFails e fails => exact ⟨_, .dmmFails e ((checks _).trans fails), rfl, rfl, rfl, rfl, rfl⟩
  | dmmDecodes passes => exact ⟨_, .dmmDecodes ((checks _).trans passes), rfl, rfl, rfl, rfl, rfl⟩
  | loadFails e fails => exact ⟨_, .loadFails e ((checks _).trans fails), rfl, rfl, rfl, rfl, rfl⟩
  | loadDecodes passes => exact ⟨_, .loadDecodes ((checks _).trans passes), rfl, rfl, rfl, rfl, rfl⟩

/-- Settles O27: the two runs take one path. -/
theorem noCommandReadsStatus : Obligations.NoCommandReadsStatus := by
  intro i s st
  obtain ⟨t, run⟩ := exists_executes i s
  obtain ⟨t', run', h⟩ := run.with_status st
  exact ⟨t, t', run.exec_eq, run'.exec_eq, h.block, h.err,
    fun hi => h.csumOk.trans (if_pos hi), fun hi => h.csumOk.trans (if_neg hi),
    fun hi => h.dmmValid.trans (if_pos hi), fun hi => h.dmmValid.trans (if_neg hi),
    fun hi => h.ldValid.trans (if_pos hi), fun hi => h.ldValid.trans (if_neg hi)⟩

end Sys2Proof.Machine
end

section
/-! What the STATUS bits tell, and which events change each part of the block (R25 to R30, R33). -/

namespace Sys2Proof.Machine

theorem CmdError.code_ne_zero (e : CmdError) : e.code ≠ 0 := by cases e <;> decide

/-- Settles O30: a decoder that fails leaves its VALID bit 0 and a code that is not 0, one that decodes leaves
1 and 0. -/
theorem validBitsTellSuccess : Obligations.ValidBitsTellSuccess := by
  refine ⟨fun s => ?_, fun s => ?_, fun s => ?_⟩
  · obtain ⟨t, run⟩ := exists_executes .decDmm s
    refine ⟨t, run.exec_eq, ?_⟩
    cases run with
    | dmmFails e => exact iff_of_false Bool.false_ne_true e.code_ne_zero
    | dmmDecodes => exact iff_of_true rfl rfl
  · obtain ⟨t, run⟩ := exists_executes .decLoad s
    refine ⟨t, run.exec_eq, ?_⟩
    cases run with
    | loadFails e => exact iff_of_false Bool.false_ne_true e.code_ne_zero
    | loadDecodes => exact iff_of_true rfl rfl
  · refine ⟨_, Executes.verify.exec_eq, ?_⟩
    simp [sumIsZero, sum8_len]

/-- Settles O42: a step that changes one of these fields ran a command, and only its writers change it. -/
theorem flagsAndBanksHaveOneWriter : Obligations.FlagsAndBanksHaveOneWriter := by
  intro s t h noReset
  cases stepsTo_of_step h with
  | reset sent => exact absurd sent (noReset _ _)
  | command sent ran =>
    refine ⟨fun ne => ?_, fun ne => ?_, fun ne => ?_, fun ne => ?_, fun _ => ⟨_, _, sent⟩⟩
    · obtain rfl := ran.eq_verify_of_csumOk_ne ne
      exact ⟨_, sent⟩
    · obtain rfl | rfl := ran.eq_verify_or_gen_of_csum_ne ne
      · exact ⟨_, .inl sent⟩
      · exact ⟨_, .inr sent⟩
    · obtain rfl := ran.eq_decDmm_of_ne ne
      exact ⟨_, sent⟩
    · obtain rfl := ran.eq_decLoad_of_ne ne
      exact ⟨_, sent⟩
  | illegal sent => simp [sent]
  | _ => simp

/-- Settles O43: of the steps that are no reset, each of the three is changed by its own write or by GEN only. -/
theorem gateLenAndFrameChangeOnlyByTheirWriters : Obligations.GateLenAndFrameChangeOnlyByTheirWriters := by
  intro s t h noReset
  cases stepsTo_of_step h with
  | reset sent => exact absurd sent (noReset _ _)
  | ctrl sent => simp [sent]
  | frameLen sent => simp [sent]
  | @window k v rest _ sent =>
    refine ⟨by simp, by simp, fun i ne => .inl ⟨v, rest, ?_⟩⟩
    rw [frameByte_writeFrameWord] at ne
    split at ne
    · rwa [show i / 4 = k by omega]
    · exact absurd rfl ne
  | command sent ran =>
    refine ⟨fun ne => ?_, fun ne => ?_, fun i ne => ?_⟩
    · exact absurd (exec_keeps_surroundings ran.exec_eq).1 ne
    · obtain rfl := ran.eq_gen_of_frameLen_ne ne
      exact ⟨0, _, .inr sent⟩
    · obtain ⟨rfl, hi⟩ := ran.eq_gen_of_frameByte_ne ne
      exact .inr ⟨hi, _, sent⟩
  | _ => simp

end Sys2Proof.Machine
end

section
/-! The bus family (`20_memory.md`): which accesses reach a register (R52), and what a read and a write of each does
(R53 to R56). -/

namespace Sys2Proof.Machine

/-! ### The targets of accesses -/

/-- Every register that exists stands at an aligned offset, in one of the four mapped ranges (R22). -/
theorem offset_mapped {r : Reg} (hr : r.wf = true) :
    r.offset.toNat % 4 = 0 ∧ (r.offset.toNat ≤ 0x10 ∨ (0x20 ≤ r.offset.toNat ∧ r.offset.toNat ≤ 0x34) ∨
      (0x40 ≤ r.offset.toNat ∧ r.offset.toNat ≤ 0x64) ∨ (0x80 ≤ r.offset.toNat ∧ r.offset.toNat ≤ 0x9C)) := by
  cases r with
  | frame k =>
    have hk : k < 8 := of_decide_eq_true hr
    have : (Reg.frame k).offset.toNat = 0x80 + 4 * k := by
      rw [Reg.offset, BitVec.toNat_ofNat, frameBase]; omega
    omega
  | _ => decide

/-- An access of another width, or at a misaligned or unmapped offset, reaches no register (R52). -/
theorem target?_eq_none {off : Offset} {width : Nat}
    (bad : width ≠ 4 ∨ off.toNat % 4 ≠ 0 ∨ (0x14 ≤ off.toNat ∧ off.toNat ≤ 0x1F) ∨
      (0x38 ≤ off.toNat ∧ off.toNat ≤ 0x3F) ∨ (0x68 ≤ off.toNat ∧ off.toNat ≤ 0x7F) ∨ 0xA0 ≤ off.toNat) :
    target? off width = none := by
  cases reached : target? off width with
  | none => rfl
  | some r =>
    obtain ⟨rfl, rfl, hr⟩ := target?_iff.mp reached
    have := offset_mapped hr
    omega

/-- The offset of a window word, from its number (R31). -/
theorem eq_offset_frame {off : Offset} {k : Nat} (h : off.toNat = 0x80 + 4 * k) : off = (Reg.frame k).offset := by
  have := off.isLt
  apply BitVec.eq_of_toNat_eq
  rw [Reg.offset, BitVec.toNat_ofNat, frameBase]
  omega

theorem frame_wf_iff {k : Nat} : (Reg.frame k).wf = true ↔ k < 8 := decide_eq_true_iff

/-- A step whose oldest event reads a register that exists (R53). -/
theorem step_of_read {s : State} {r : Reg} {rest : List HostEvent} (hr : r.wf = true)
    (sent : s.pending = .access (.read r.offset 4) :: rest) :
    step s = .next { s with pending := rest, response := some { busError := false, data := some (s.readReg r) } } := by
  rw [step_of_access sent, access_read, target?_iff.mpr ⟨rfl, rfl, hr⟩]
  cases r <;> rfl

/-- A step whose oldest event writes a register that exists (R54). -/
theorem step_of_write {s : State} {r : Reg} {v : Word} {rest : List HostEvent} (hr : r.wf = true)
    (sent : s.pending = .access (.write r.offset 4 v) :: rest) :
    step s = writeReg r v { s with pending := rest, response := some writeDone } := by
  rw [step_of_access sent, access_write_some v _ (target?_iff.mpr ⟨rfl, rfl, hr⟩)]
  rfl

/-- A step whose oldest event writes a window word (R55). -/
theorem step_of_window_write {s : State} {k : Nat} {v : Word} {rest : List HostEvent} (hk : k < 8)
    (sent : s.pending = .access (.write (Reg.frame k).offset 4 v) :: rest) :
    step s = .next (({ s with pending := rest, response := some writeDone } : State).writeFrameWord k v) :=
  step_of_write (frame_wf_iff.mpr hk) sent

/-- Settles O33: no such access reaches a register. -/
theorem badAccessIsABusErrorAndChangesNothing : Obligations.BadAccessIsABusErrorAndChangesNothing := by
  intro s off width v rest bad
  have unreached : target? off width = none := target?_eq_none bad
  refine ⟨fun sent => ?_, fun sent => ?_⟩
  · rw [step_of_access sent, access_read, unreached]
    rfl
  · rw [step_of_access sent, access_write_none v _ unreached]
    rfl

/-! ### Reads -/

/-- The number a register reads as: its fields at their bit places (R23 to R31, R53). -/
def State.regValue (s : State) : Reg → Nat
  | .ctrl => s.ctrl.gateEn.toNat
  | .cmd => 0
  | .status => s.status.err.toNat + 16 * s.status.csumOk.toNat + 32 * s.status.dmmValid.toNat + 64 * s.status.ldValid.toNat
  | .frameLen => s.frameLen.toNat
  | .csum => s.csum.sum.toNat + 256 * s.csum.chk.toNat
  | .dmmExpb => s.dmm.expb.toNat
  | .dmmUnit => s.dmm.unit.toNat
  | .dmmExp => s.dmm.exp.toNat
  | .dmmMant => s.dmm.mant.toNat
  | .dmmRaw1 => s.dmm.raw1.toNat
  | .dmmRaw2 => s.dmm.raw2.toNat
  | .ldLen => s.load.len.toNat
  | .ldUnk1 => s.load.unk1.toNat
  | .ldMode => s.load.mode.toNat
  | .ldFan => s.load.fan.toNat
  | .ldRunflag => s.load.runflag.toNat
  | .ldVolt => s.load.volt.toNat
  | .ldCurr => s.load.curr.toNat
  | .ldRunt => s.load.runt.toNat
  | .ldTemp => s.load.temp.toNat
  | .ldSetp => s.load.setp.toNat
  | .frame k => (s.frameByte (4 * k)).toNat + 2 ^ 8 * (s.frameByte (4 * k + 1)).toNat
      + 2 ^ 16 * (s.frameByte (4 * k + 2)).toNat + 2 ^ 24 * (s.frameByte (4 * k + 3)).toNat

/-- A read returns that number: `setWidth` puts 0 above a register's bits (R32). -/
theorem readReg_eq (s : State) (r : Reg) : s.readReg r = BitVec.ofNat 32 (s.regValue r) := by
  cases r with
  | ctrl => cases h : s.ctrl.gateEn <;> simp [State.readReg, State.regValue, Ctrl.word, h]
  | status => exact statusWord_eq s.status
  | csum => exact csumWord_eq s.csum
  | frame k =>
    apply BitVec.eq_of_toNat_eq
    rw [State.readReg, State.frameWord, ← le32_eq_wordOfBytes]
    rfl
  | _ => simp [State.readReg, State.regValue]

/-- Each row of the map is a register that exists, at its offset (R22). -/
theorem regRows_sound : ∀ row ∈ regRows, row.1 = row.2.offset ∧ row.2.wf = true := by decide

/-- Settles O34: the statement's table is the register map's, each register with the number it reads as. -/
theorem readsReturnRegistersAndChangeNothing : Obligations.ReadsReturnRegistersAndChangeNothing := by
  intro s off rest sent
  have read : ∀ r : Reg, r.wf = true → off = r.offset → step s = .next { s with
      pending := rest, response := some { busError := false, data := some (BitVec.ofNat 32 (s.regValue r)) } } := by
    rintro r hr rfl
    rw [step_of_read hr sent, readReg_eq]
  refine ⟨fun v tabled => ?_, fun k hk hoff => read (.frame k) (frame_wf_iff.mpr hk) (eq_offset_frame hoff)⟩
  obtain ⟨⟨off', r⟩, hrow, heq⟩ :=
    List.mem_map.mp (show (off, v) ∈ regRows.map fun row => (row.1, s.regValue row.2) from tabled)
  obtain ⟨rfl, rfl⟩ := Prod.mk.inj heq
  obtain ⟨hoff, hr⟩ := regRows_sound _ hrow
  exact read r hr hoff

/-! ### Writes -/

/-- The registers a host write leaves alone (R32, R54). -/
def readOnlyRegs : List Reg :=
  [.status, .csum, .dmmExpb, .dmmUnit, .dmmExp, .dmmMant, .dmmRaw1, .dmmRaw2,
   .ldLen, .ldUnk1, .ldMode, .ldFan, .ldRunflag, .ldVolt, .ldCurr, .ldRunt, .ldTemp, .ldSetp]

theorem readOnlyRegs_wf : ∀ r ∈ readOnlyRegs, r.wf = true := by decide

theorem writeReg_readOnly {r : Reg} (hr : r ∈ readOnlyRegs) (v : Word) (s : State) : writeReg r v s = .next s := by
  cases r with
  | ctrl | cmd | frameLen | frame => simp [readOnlyRegs] at hr
  | _ => rfl

/-- Byte `k` of a word, from the word's number (R7). -/
theorem byteOfWord_eq (w : Word) (k : Nat) : byteOfWord w k = BitVec.ofNat 8 (w.toNat / 2 ^ (8 * k) % 256) := by
  rw [← byteOfWord_toNat, BitVec.ofNat_toNat, BitVec.setWidth_eq]

theorem byteOfWord_zero_toNat (w : Word) : (byteOfWord w 0).toNat = w.toNat % 256 := by
  rw [byteOfWord_toNat, Nat.mul_zero, pow_zero, Nat.div_one]

/-- A FRAME_LEN write of a length that fits sets LEN (R26). -/
theorem writeFrameLen_of_le {v : Word} (fits : v.toNat % 256 ≤ 32) (s : State) :
    s.writeFrameLen v = s.setLen (BitVec.ofNat 8 (v.toNat % 256)) := by
  rw [State.writeFrameLen, if_pos (by rw [byteOfWord_zero_toNat]; exact fits), ← byteOfWord_zero_toNat,
    BitVec.ofNat_toNat, BitVec.setWidth_eq]

/-- A FRAME_LEN write of a length beyond the buffer is ignored (R26). -/
theorem writeFrameLen_of_lt {v : Word} (tooLong : 32 < v.toNat % 256) (s : State) : s.writeFrameLen v = s := by
  rw [State.writeFrameLen, if_neg (by rw [byteOfWord_zero_toNat]; exact Nat.not_le.mpr tooLong)]

/-- Settles O35: one register's write per row of the map. -/
theorem writesDoWhatTheMapSays : Obligations.WritesDoWhatTheMapSays := by
  intro s off v rest sent s'
  refine ⟨?_, ?_, ?_, ?_, fun k hk hoff => ?_, fun readOnly => ?_⟩
  · rintro rfl
    rw [step_of_write (r := .ctrl) rfl sent, writeReg_ctrl, BitVec.getLsbD, Nat.testBit_zero]
    rfl
  · rintro rfl
    exact step_of_cmd sent
  · rintro rfl fits
    rw [step_of_write (r := .frameLen) rfl sent, writeReg_frameLen, writeFrameLen_of_le fits]
    rfl
  · rintro rfl tooLong
    rw [step_of_write (r := .frameLen) rfl sent, writeReg_frameLen, writeFrameLen_of_lt tooLong]
    rfl
  · obtain rfl := eq_offset_frame hoff
    refine ⟨_, step_of_window_write hk sent, rfl, rfl, rfl, rfl, rfl, rfl, rfl, rfl, fun j => ?_⟩
    rw [frameByte_writeFrameWord, byteOfWord_eq]
    rfl
  · obtain ⟨r, hr, rfl⟩ := List.mem_map.mp (show off ∈ readOnlyRegs.map Reg.offset from readOnly)
    rw [step_of_write (readOnlyRegs_wf r hr) sent, writeReg_readOnly hr]
    rfl

/-- Settles O36: the window write's bytes, in the word and outside it. -/
theorem frameWindowWriteSetsFourBytes : Obligations.FrameWindowWriteSetsFourBytes := by
  intro s k v rest hk sent
  refine ⟨_, step_of_window_write hk sent, fun i hi => ?_, fun j hj => ?_, by simp [writeDone]⟩
  · rw [frameByte_writeFrameWord, if_pos (by omega), Nat.add_sub_cancel_left]
    rfl
  · rw [frameByte_writeFrameWord, if_neg (by omega)]
    rfl

/-- A window word reads as it was last written, whatever LEN is (R55, R56). -/
theorem frameWord_writeFrameWord (s : State) (k : Nat) (v : Word) : (s.writeFrameWord k v).frameWord k = v := by
  simp [State.frameWord, frameByte_writeFrameWord, show ∀ i, 4 * k + i - 4 * k = i by omega]

/-- Settles O37: a window write, then a read of the word it left. -/
theorem frameWindowWriteThenReadReturnsTheWord : Obligations.FrameWindowWriteThenReadReturnsTheWord := by
  intro s k v rest hk sent
  refine ⟨_, _, step_of_window_write hk sent, step_of_read (r := .frame k) (frame_wf_iff.mpr hk) rfl, ?_, rfl⟩
  rw [State.readReg, frameWord_writeFrameWord]

end Sys2Proof.Machine
end

section
/-! An access made again in the state it left (R59): a GEN alone goes on from there. -/

namespace Sys2Proof.Machine

theorem State.SameBlock.refl (s : State) : s.SameBlock s := ⟨rfl, rfl, rfl, rfl, rfl, rfl, fun _ => rfl⟩

/-- A bus answer is no register. -/
@[simp] theorem readReg_respond (s : State) (x : Response) (r : Reg) : (s.respond x).readReg r = s.readReg r := by
  cases r <;> rfl

theorem respond_eq_self {s : State} {x : Response} (answered : s.response = some x) : s.respond x = s := by
  rw [State.respond, ← answered]

/-- A command other than GEN writes nothing that a command reads: CTRL, FRAME_LEN and the frame are kept. -/
theorem Executes.keeps_inputs {i : Instr} {s t : State} (run : Executes s i t) (noGen : i ≠ .gen) :
    t.ctrl = s.ctrl ∧ t.frameLen = s.frameLen ∧ ∀ j, t.frameByte j = s.frameByte j := by
  cases run with
  | genFull | genAppends => exact absurd rfl noGen
  | _ => exact ⟨rfl, rfl, fun _ => rfl⟩

/-- So, run again, it takes the same path and leaves the state as it is. -/
theorem Executes.again {i : Instr} {s t : State} (run : Executes s i t) (noGen : i ≠ .gen) : Executes t i t := by
  obtain ⟨ctrl, frameLen, bytes⟩ := run.keeps_inputs noGen
  have checks (m : Nat) : t.decodeError? m = s.decodeError? m := decodeError?_congr m ctrl frameLen fun j _ => bytes j
  have sum : t.sum8 t.len = s.sum8 s.len := by
    rw [State.len, frameLen]
    exact sum8_congr fun j _ => bytes j
  have dmm : t.dmmFields = s.dmmFields := dmmFields_congr fun j _ _ => bytes j
  have load : t.loadFields = s.loadFields := loadFields_congr frameLen fun j _ _ => bytes j
  cases run with
  | verify =>
    rw [executes_iff, exec, execVerify_eq, sum]
    rfl
  | genFull | genAppends => exact absurd rfl noGen
  | dmmFails e fails => exact .dmmFails e ((checks _).trans fails)
  | dmmDecodes passes =>
    have rerun := Executes.dmmDecodes ((checks _).trans passes)
    rwa [dmm] at rerun
  | loadFails e fails => exact .loadFails e ((checks _).trans fails)
  | loadDecodes passes =>
    have rerun := Executes.loadDecodes ((checks _).trans passes)
    rwa [load] at rerun

/-- A FRAME_LEN write sees nothing of LEN. -/
theorem writeFrameLen_again (s : State) (v : Word) : (s.writeFrameLen v).writeFrameLen v = s.writeFrameLen v := by
  by_cases fits : (byteOfWord v 0).toNat ≤ Config.frameCap
  · simp only [State.writeFrameLen, if_pos fits]
    rfl
  · simp only [State.writeFrameLen, if_neg fits]

theorem sameBlock_writeFrameWord_again (s : State) (k : Nat) (v : Word) :
    (s.writeFrameWord k v).SameBlock ((s.writeFrameWord k v).writeFrameWord k v) := by
  refine ⟨writeFrameWord_ctrl _ k v, writeFrameWord_status _ k v, writeFrameWord_frameLen _ k v,
    writeFrameWord_csum _ k v, writeFrameWord_dmm _ k v, writeFrameWord_load _ k v, fun j => ?_⟩
  simp only [frameByte_writeFrameWord]
  split <;> rfl

/-- A register write other than a GEN, made again, leaves the block as it is, and neither touches the bus's answer. -/
theorem writeReg_again {r : Reg} {v : Word} {s t : State} (noGen : r = .cmd → v ≠ encode .gen)
    (h : writeReg r v s = .next t) :
    t.response = s.response ∧ ∃ u, writeReg r v t = .next u ∧ t.SameBlock u ∧ u.response = t.response := by
  rcases writeReg_cases r v s with
    e | ⟨rfl, e⟩ | ⟨rfl, e⟩ | ⟨k, rfl, e⟩ | ⟨i, rfl, decoded, e⟩ | ⟨_, rfl, bad, e⟩ <;> rw [e] at h
  · cases h
    exact ⟨rfl, s, e, .refl s, rfl⟩
  · cases h
    exact ⟨rfl, _, writeReg_ctrl v _, .refl _, rfl⟩
  · cases h
    refine ⟨writeFrameLen_response s v, _, writeReg_frameLen v _, ?_⟩
    rw [writeFrameLen_again]
    exact ⟨.refl _, rfl⟩
  · cases h
    exact ⟨writeFrameWord_response s k v, _, writeReg_frame k v _, sameBlock_writeFrameWord_again s k v,
      writeFrameWord_response _ k v⟩
  · have run : Executes t i t := (executes_iff.mpr h).again
      fun isGen => noGen rfl (isGen ▸ eq_encode_of_decodeWord decoded)
    obtain ⟨-, -, -, answer⟩ := exec_keeps_surroundings h
    exact ⟨answer, t, (cmdWrite_ok decoded t).trans run.exec_eq, .refl t, rfl⟩
  · cases h
    exact ⟨rfl, _, cmdWrite_error bad _, .refl _, rfl⟩

/-- Every access but a GEN, made again, leaves the block as it is and is answered the same (R59). -/
theorem access_again {a : Access} {s t : State} (noGen : a ≠ .write 0x04 4 0x00000002) (h : access a s = .next t) :
    ∃ u, access a t = .next u ∧ t.SameBlock u ∧ u.response = t.response := by
  cases a with
  | read off width =>
    rw [access_read] at h
    cases h
    refine ⟨_, access_read off width _, .refl _, ?_⟩
    simp only [respond_response, readReg_respond]
  | write off width v =>
    cases reached : target? off width with
    | none =>
      rw [access_write_none v s reached] at h
      cases h
      exact ⟨_, access_write_none v _ reached, .refl _, rfl⟩
    | some r =>
      obtain ⟨rfl, rfl, -⟩ := target?_iff.mp reached
      rw [access_write_some v s reached] at h
      obtain ⟨answer, again⟩ := writeReg_again (fun isCmd isGen => noGen (by rw [isCmd, isGen]; rfl)) h
      rwa [access_write_some v t reached, respond_eq_self answer]

/-- A GEN with room in the buffer adds 1 to LEN (R102). -/
theorem access_gen_frameLen {s : State} (room : s.frameLen.toNat < 32) :
    ∃ t, access (.write 0x04 4 0x00000002) s = .next t ∧ t.frameLen.toNat = s.frameLen.toNat + 1 := by
  have decoded : decodeWord 0x00000002 = .ok .gen := by decide
  have run := Executes.genAppends (s := s.respond writeDone) (Nat.ne_of_lt room)
  refine ⟨_, (access_write_some _ s target?_cmd).trans ((cmdWrite_ok decoded _).trans run.exec_eq), ?_⟩
  rw [setErr_frameLen, setCsum_frameLen, setLen_frameLen, BitVec.toNat_ofNat]
  exact Nat.mod_eq_of_lt (Nat.lt_trans (Nat.succ_lt_succ room) (by decide))

/-- Settles O38: the same access made again, and LEN after one GEN and the next. -/
theorem accessesButGenAreIdempotent : Obligations.AccessesButGenAreIdempotent := by
  refine ⟨fun _ _ _ => access_again, fun s room => ?_⟩
  obtain ⟨t, first, ht⟩ := access_gen_frameLen (s := s) (by omega)
  obtain ⟨u, second, hu⟩ := access_gen_frameLen (s := t) (by omega)
  exact ⟨t, u, first, second, by omega⟩

end Sys2Proof.Machine
end

section
/-! The encoding family (`30_encoding.md`): the words of the commands and the illegal words (R70 to R74), and the
pseudo-instructions that are one access (R76). -/

namespace Sys2Proof.Machine

/-! ### Words -/

@[simp] theorem decodeWord_encode (i : Instr) : decodeWord (encode i) = .ok i := by
  cases i <;> decide

theorem encode_injective : Function.Injective encode := fun i j same => by
  have decoded := decodeWord_encode i
  rw [same, decodeWord_encode] at decoded
  cases decoded
  rfl

theorem tableWord_toNat (w : Word) : tableWord 32 w.toNat = w := by
  rw [tableWord, Nat.mod_eq_of_lt w.isLt, BitVec.ofNat_toNat, BitVec.setWidth_eq]

/-- The table's bit numbering is the bus word's own (R70). -/
theorem decodeTableWord_toNat {w : Word} {i : Instr} (decoded : decodeWord w = .ok i) :
    decodeTableWord 32 w.toNat = some i := by
  simp only [decodeTableWord, tableWord_toNat, bytesOfWord, decode, wordOfBytes_byteOfWord, decoded]

/-- A row of the map: its word is its command's, and decodes to it (R72). -/
theorem row_of_encode {i : Instr} {w : Word} (row : encode i = w) :
    decodeWord w = .ok i ∧ encode i = w ∧ decodeTableWord 32 w.toNat = some i := by
  subst row
  exact ⟨decodeWord_encode i, rfl, decodeTableWord_toNat (decodeWord_encode i)⟩

/-- Settles O1: the table row by row. -/
theorem opcodeMapRowsDecode : Obligations.OpcodeMapRowsDecode :=
  ⟨row_of_encode rfl, row_of_encode rfl, row_of_encode rfl, row_of_encode rfl⟩

/-- Settles O2: the decoder's two answers, a command's word being the only word that decodes to it. -/
theorem everyWordIsOneCommandOrIllegal : Obligations.EveryWordIsOneCommandOrIllegal := by
  intro w
  cases decoded : decodeWord w with
  | ok i =>
    obtain rfl := eq_encode_of_decodeWord decoded
    exact .inl ⟨i, rfl, rfl, fun _ same => (encode_injective same).symm, cmdWrite_ok decoded⟩
  | error e =>
    refine .inr ⟨fun i => ⟨?_, nofun⟩, cmdWrite_error decoded⟩
    rintro rfl
    rw [decodeWord_encode] at decoded
    cases decoded

theorem commandWord_statement (i : Instr) : Laws.CommandWord.Statement i := by
  cases i with
  | verify => exact Laws.CommandWord.verify
  | gen => exact Laws.CommandWord.gen
  | decDmm => exact Laws.CommandWord.decDmm
  | decLoad => exact Laws.CommandWord.decLoad

/-- A word with OP outside 1 to 4 or RSVD not 0 is no command's (R73). -/
theorem decodeWord_error_of_illegal {w : Word}
    (illegal : w.toNat % 16 = 0 ∨ 5 ≤ w.toNat % 16 ∨ w.toNat / 16 ≠ 0) : ∃ e, decodeWord w = .error e := by
  cases decoded : decodeWord w with
  | error e => exact ⟨e, rfl⟩
  | ok i =>
    obtain rfl := eq_encode_of_decodeWord decoded
    obtain ⟨rsvd, op_pos, op_le, -⟩ := commandWord_statement i
    rw [opField_toNat] at op_pos op_le
    have high : (encode i).toNat / 16 = 0 := by rw [← rsvdField_toNat, rsvd]; rfl
    omega

/-- Settles O6: such a word does not decode, so its CMD write is an illegal one. -/
theorem illegalCommandSetsErrOnly : Obligations.IllegalCommandSetsErrOnly := by
  intro s w rest sent illegal
  obtain ⟨e, bad⟩ := decodeWord_error_of_illegal illegal
  rw [step_of_cmd sent, cmdWrite_error bad]
  rfl

/-! ### Pseudo-instructions of one access -/

theorem access_write_ctrl (v : Word) (s : State) :
    access (.write 0x00 4 v) s = .next ((s.respond writeDone).setGateEn (v.getLsbD 0)) :=
  access_write_some v s (target?_iff.mpr ⟨rfl, rfl, rfl⟩ : target? 0x00 4 = some .ctrl)

/-- Settles O49: the expansions are the table's, and bit 0 of a gate value is that value. -/
theorem pseudoInstructionsExpandAsTabled : Obligations.PseudoInstructionsExpandAsTabled := by
  refine ⟨rfl, rfl, rfl, rfl, fun g hg => ⟨rfl, fun s => ⟨_, access_write_ctrl _ s, ?_⟩⟩⟩
  interval_cases g <;> rfl

end Sys2Proof.Machine
end

section
/-! `LOADFRAME` (R76): a run of window writes puts each word at its place, whatever the order, and the FRAME_LEN write
that ends it sets LEN. -/

namespace Sys2Proof.Machine

/-- `t` is `s` with the word `w k` in each window place `k` of `ks`: what the frame holds, and what is kept. -/
structure State.WindowLoaded (w : Nat → Word) (ks : List Nat) (s t : State) : Prop where
  bytes : ∀ j, t.frameByte j = if j / 4 ∈ ks then byteOfWord (w (j / 4)) (j % 4) else s.frameByte j
  ctrl : t.ctrl = s.ctrl
  status : t.status = s.status
  csum : t.csum = s.csum
  dmm : t.dmm = s.dmm
  load : t.load = s.load

/-- A window write's bytes, from a byte's word and its place there (R55). -/
theorem frameByte_writeFrameWord_div (s : State) (k : Nat) (v : Word) (j : Nat) :
    (s.writeFrameWord k v).frameByte j = if j / 4 = k then byteOfWord v (j % 4) else s.frameByte j := by
  rw [frameByte_writeFrameWord]
  by_cases inWord : j / 4 = k
  · rw [if_pos inWord, if_pos (by omega), show j - 4 * k = j % 4 by omega]
  · rw [if_neg inWord, if_neg (by omega)]

/-- A run whose host writes the words `w k` to the window places `ks` goes on from a state that holds them. -/
theorem run_windowWrites (w : Nat → Word) (n : Nat) (rest : List HostEvent) {ks : List Nat} (hks : ∀ k ∈ ks, k < 8)
    {s : State} (sent : s.pending = ks.map (fun k => .access (writeTo (.frame k) (w k))) ++ rest) :
    ∃ t : State, core.run (ks.length + n) s = core.run n t ∧ s.WindowLoaded w ks t ∧ t.pending = rest := by
  induction ks generalizing s with
  | nil => exact ⟨s, by rw [List.length_nil, Nat.zero_add], ⟨fun _ => rfl, rfl, rfl, rfl, rfl, rfl⟩, sent⟩
  | cons k ks ih =>
    obtain ⟨hk, hks⟩ := List.forall_mem_cons.mp hks
    have first := step_of_window_write hk sent
    obtain ⟨t, run, loaded, left⟩ := ih hks (writeFrameWord_pending { s with pending := _, response := some writeDone } k (w k))
    refine ⟨t, ?_, { loaded with bytes := fun j => ?_ }, left⟩
    · rw [List.length_cons, Nat.add_right_comm]
      exact (run_succ_of_step (M := core) _ first).trans run
    · rw [loaded.bytes, frameByte_writeFrameWord_div]
      by_cases later : j / 4 ∈ ks
      · rw [if_pos later, if_pos (List.mem_cons_of_mem k later)]
      · by_cases now : j / 4 = k
        · rw [if_neg later, if_pos now, if_pos (now ▸ List.mem_cons_self), now]
        · rw [if_neg later, if_neg now, if_neg (List.not_mem_cons_of_ne_of_not_mem now later)]
          rfl

/-- A frame's window word, padded with 0 beyond the frame's end (R76). -/
def paddedWord (bytes : List Byte) (k : Nat) : Word :=
  wordOfBytes (padByte bytes (4 * k)) (padByte bytes (4 * k + 1)) (padByte bytes (4 * k + 2)) (padByte bytes (4 * k + 3))

theorem loadFrameAccesses_eq (bytes : List Byte) : loadFrameAccesses bytes =
    (List.range ((bytes.length + 3) / 4)).map (fun k => writeTo (.frame k) (paddedWord bytes k))
      ++ [writeTo .frameLen (BitVec.ofNat 32 bytes.length)] := rfl

theorem byteOfWord_wordOfBytes (f : Nat → Byte) {i : Nat} (hi : i < 4) :
    byteOfWord (wordOfBytes (f 0) (f 1) (f 2) (f 3)) i = f i := by
  have bytes := bytesOfWord_wordOfBytes (f 0) (f 1) (f 2) (f 3)
  simp only [bytesOfWord, List.cons.injEq, and_true] at bytes
  obtain ⟨b0, b1, b2, b3⟩ := bytes
  interval_cases i
  · exact b0
  · exact b1
  · exact b2
  · exact b3

theorem byteOfWord_paddedWord (bytes : List Byte) (j : Nat) :
    byteOfWord (paddedWord bytes (j / 4)) (j % 4) = bytes.getD j 0 :=
  calc byteOfWord (paddedWord bytes (j / 4)) (j % 4)
      = padByte bytes (4 * (j / 4) + j % 4) :=
        byteOfWord_wordOfBytes (fun i => padByte bytes (4 * (j / 4) + i)) (Nat.mod_lt j (by decide))
    _ = bytes.getD j 0 := by rw [Nat.div_add_mod, padByte]

/-- A step whose oldest event writes FRAME_LEN with a length that fits (R26, R54). -/
theorem step_of_frameLen_write {s : State} {n : Nat} {rest : List HostEvent} (fits : n ≤ 32)
    (sent : s.pending = .access (writeTo .frameLen (BitVec.ofNat 32 n)) :: rest) :
    step s = .next (({ s with pending := rest, response := some writeDone } : State).setLen (BitVec.ofNat 8 n)) := by
  have number : (BitVec.ofNat 32 n).toNat % 256 = n := by rw [BitVec.toNat_ofNat]; omega
  rw [step_of_write (r := .frameLen) rfl sent, writeReg_frameLen, writeFrameLen_of_le (number.trans_le fits), number]

/-- Where the frame buffer begins with `bytes` and LEN is their number, the frame is `bytes` (R30). -/
theorem frameBytes_eq_of_frameByte {s : State} {bytes : List Byte} (len : s.frameLen.toNat = bytes.length)
    (held : ∀ j, j < bytes.length → s.frameByte j = bytes.getD j 0) : s.frameBytes = bytes := by
  rw [State.frameBytes, len]
  refine List.ext_getElem (by simp) fun j _ hj => ?_
  rw [List.getElem_map, List.getElem_range, held j hj, List.getD_eq_getElem bytes 0 hj]

/-- The assembler refuses a LOADFRAME longer than the buffer (R76). -/
theorem assemble_loadFrame_of_lt {bytes : List Byte} (tooLong : 32 < bytes.length) (ls : List HostLine) :
    assemble (.loadFrame bytes :: ls) = none :=
  if_neg fun wf => Nat.not_le.mpr tooLong (of_decide_eq_true wf)

/-- Settles O48: the window writes, then the FRAME_LEN write. -/
theorem loadFrameLoadsTheFrame : Obligations.LoadFrameLoadsTheFrame := by
  refine ⟨fun bytes s rest fits sent => ?_, fun _ ls tooLong => assemble_loadFrame_of_lt tooLong ls⟩
  have windows : ∀ k ∈ List.range ((bytes.length + 3) / 4), k < 8 := fun k hk => by
    rw [List.mem_range] at hk
    omega
  rw [HostLine.expand, loadFrameAccesses_eq, List.map_append, List.map_map, List.append_assoc] at sent
  obtain ⟨t, run, loaded, left⟩ := run_windowWrites (paddedWord bytes) 1 _ windows sent
  rw [List.length_range] at run
  have last := step_of_frameLen_write fits left
  have held (j : Nat) : t.frameByte j =
      if j < 4 * ((bytes.length + 3) / 4) then bytes.getD j 0 else s.frameByte j := by
    simp only [loaded.bytes, byteOfWord_paddedWord, List.mem_range, Nat.div_lt_iff_lt_mul (show 0 < 4 by decide),
      Nat.mul_comm]
  have len : (BitVec.ofNat 8 bytes.length).toNat = bytes.length := by rw [BitVec.toNat_ofNat]; omega
  refine ⟨_, run.trans (run_succ_of_step (M := core) 0 last), held, len, ?_, loaded.ctrl, loaded.status, loaded.csum,
    loaded.dmm, loaded.load, rfl⟩
  exact frameBytes_eq_of_frameByte len fun j hj => (held j).trans (if_pos (by omega))

end Sys2Proof.Machine
end

section
/-! The checksum family (`40_checksum.md`): the checksum byte of a payload (R100), VERIFY (R101), GEN (R102), their
round trip (R104), and what a checksum detects (R105). -/

namespace Sys2Proof.Machine

/-! ### The checksum byte -/

theorem modSum_lt (bytes : List Byte) : modSum bytes < 256 := Nat.mod_lt _ (by decide)

theorem modSum_append_singleton (bytes : List Byte) (c : Byte) :
    modSum (bytes ++ [c]) = (modSum bytes + c.toNat) % 256 := by
  simp [modSum]

/-- The byte sum does not see the order of the bytes. -/
theorem modSum_perm {bytes bytes' : List Byte} (h : bytes.Perm bytes') : modSum bytes = modSum bytes' :=
  congrArg (· % 256) (h.map BitVec.toNat).sum_eq

theorem modSum_append_checksumOf (payload : List Byte) : modSum (payload ++ [checksumOf (modSum payload)]) = 0 := by
  rw [modSum_append_singleton, sum_add_checksumOf (modSum_lt payload)]

/-- Below 256 no two bytes complete one sum to a multiple of 256. -/
theorem eq_checksumOf_of_modSum_append {payload : List Byte} {c : Byte} (h : modSum (payload ++ [c]) = 0) :
    c = checksumOf (modSum payload) := by
  have := modSum_lt payload
  have := c.isLt
  rw [modSum_append_singleton] at h
  apply BitVec.eq_of_toNat_eq
  rw [checksumOf_toNat]
  omega

/-- Settles O11: the byte's number, the sum it completes, and its uniqueness. -/
theorem checksumByteMakesSumZero : Obligations.ChecksumByteMakesSumZero := fun payload =>
  ⟨checksumOf_toNat, modSum_append_checksumOf payload, fun zero => congrArg checksumOf zero,
    fun _ => eq_checksumOf_of_modSum_append⟩

/-! ### VERIFY and GEN -/

/-- Settles O9: VERIFY's one path, with `sum8(LEN)` as the frame's byte sum. -/
theorem verifyWritesSumAndResult : Obligations.VerifyWritesSumAndResult := fun s => by
  rw [← sum8_len]
  exact Executes.verify.exec_eq

/-- VERIFY's verdict on a frame (R101). -/
theorem exists_verify (s : State) : ∃ t, exec .verify s = .next t ∧
    t.status.csumOk = decide (modSum s.frameBytes = 0) ∧ t.status.err = 0 :=
  ⟨_, verifyWritesSumAndResult s, rfl, rfl⟩

/-- Settles O10: GEN's two paths, the buffer holding a byte more or being full. -/
theorem genAppendsOrReportsFull : Obligations.GenAppendsOrReportsFull := fun s => by
  refine ⟨fun room => ?_, fun full => (Executes.genFull full).exec_eq⟩
  rw [← sum8_len]
  have len : (BitVec.ofNat 8 (s.len + 1)).toNat = s.frameLen.toNat + 1 := by
    rw [BitVec.toNat_ofNat, State.len]; omega
  exact ⟨_, (Executes.genAppends (Nat.ne_of_lt room)).exec_eq, frameByte_setFrameByte_self s _ _,
    fun i other => frameByte_setFrameByte_other s _ other, len, rfl, rfl, rfl, rfl, rfl, rfl, rfl, rfl, rfl⟩

/-- Settles O32: the one byte GEN stores is at LEN, and a full buffer takes the path that stores none. -/
theorem genFrame : Obligations.GenFrame := fun s t h => by
  cases executes_iff.mpr h with
  | genFull =>
    exact ⟨rfl, rfl, rfl, rfl, rfl, rfl, fun _ _ _ _ => rfl, fun _ _ => rfl, rfl, rfl, rfl⟩
  | genAppends room =>
    refine ⟨rfl, rfl, rfl, rfl, rfl, rfl, ?_, fun full => absurd full room, rfl, rfl, rfl⟩
    rintro _ rfl i other
    exact frameByte_setFrameByte_other s _ other

/-- A state with one byte more in its frame has that byte at the end of the frame's list (R30). -/
theorem frameBytes_eq_append {s t : State} {c : Byte} (len : t.frameLen.toNat = s.frameLen.toNat + 1)
    (last : t.frameByte s.frameLen.toNat = c) (kept : ∀ i, i ≠ s.frameLen.toNat → t.frameByte i = s.frameByte i) :
    t.frameBytes = s.frameBytes ++ [c] := by
  have front : (List.range s.frameLen.toNat).map t.frameByte = s.frameBytes :=
    List.map_congr_left fun i hi => kept i (List.mem_range.mp hi).ne
  rw [State.frameBytes, len, List.range_succ, List.map_append, front, List.map_singleton, last]

/-- GEN with room makes the payload a payload with its checksum byte, the source's `buildFrame` (R102). -/
theorem exists_gen_frameBytes {s : State} (room : s.frameLen.toNat < 32) :
    ∃ t, exec .gen s = .next t ∧ t.frameBytes = s.frameBytes ++ [checksumOf (modSum s.frameBytes)] := by
  obtain ⟨t, ran, last, kept, len, -⟩ := (genAppendsOrReportsFull s).1 room
  exact ⟨t, ran, frameBytes_eq_append len last kept⟩

/-- Settles O12: VERIFY sums the frame that GEN built. -/
theorem genThenVerifySucceeds : Obligations.GenThenVerifySucceeds := by
  intro s room
  obtain ⟨t, gen, built⟩ := exists_gen_frameBytes room
  obtain ⟨u, verify, verdict, err⟩ := exists_verify t
  exact ⟨t, u, gen, verify, by rw [verdict, built, modSum_append_checksumOf, decide_eq_true rfl], err⟩

/-! ### What a checksum detects -/

/-- A changed byte moves the sum by less than 256, and not by 0 (R105). -/
theorem modSum_ne_zero_of_one_changed {s : State} {i : Nat} {v : Byte} (zero : modSum s.frameBytes = 0)
    (hi : i < s.len) (changed : v ≠ s.frameByte i) : modSum (s.setFrameByte i v).frameBytes ≠ 0 := by
  have change := byteSum_setFrameByte s v hi
  have : v.toNat ≠ (s.frameByte i).toNat := fun same => changed (BitVec.eq_of_toNat_eq same)
  have := v.isLt
  have := (s.frameByte i).isLt
  rw [← sum8_len, State.sum8] at zero ⊢
  rw [setFrameByte_len]
  omega

/-- Two changed bytes of the same sum modulo 256 leave the frame's sum (R105). -/
theorem modSum_eq_of_two_cancelling {s : State} {i j : Nat} {v w : Byte} (hi : i < s.len) (hj : j < s.len)
    (other : i ≠ j) (cancel : v + w = s.frameByte i + s.frameByte j) :
    modSum ((s.setFrameByte i v).setFrameByte j w).frameBytes = modSum s.frameBytes := by
  have first := byteSum_setFrameByte s v hi
  have second := byteSum_setFrameByte (s.setFrameByte i v) w hj
  rw [frameByte_setFrameByte_other s v other.symm] at second
  have cancel := congrArg BitVec.toNat cancel
  rw [BitVec.toNat_add, BitVec.toNat_add] at cancel
  rw [← sum8_len, ← sum8_len, State.sum8, State.sum8, setFrameByte_len, setFrameByte_len]
  omega

/-- Settles O13: the verdict is on the sum, which one change moves off 0 and a cancelling pair or a reordering keeps. -/
theorem singleByteCorruptionDetected : Obligations.SingleByteCorruptionDetected := by
  intro s s' ran verified
  have zero : modSum s.frameBytes = 0 := by
    obtain ⟨t, ran', verdict, -⟩ := exists_verify s
    obtain rfl : s' = t := Host.Outcome.next.inj (ran.symm.trans ran')
    exact of_decide_eq_true (verdict.symm.trans verified)
  refine ⟨fun i v hi changed => ?_, fun i j v w hi hj other cancel => ?_, fun r reordered => ?_⟩
  · obtain ⟨t, ran, verdict, -⟩ := exists_verify (s.setFrameByte i v)
    exact ⟨t, ran, verdict.trans (decide_eq_false (modSum_ne_zero_of_one_changed zero hi changed))⟩
  · obtain ⟨t, ran, verdict, -⟩ := exists_verify ((s.setFrameByte i v).setFrameByte j w)
    have kept := modSum_eq_of_two_cancelling hi hj other cancel
    exact ⟨t, ran, verdict.trans (decide_eq_true (kept.trans zero))⟩
  · obtain ⟨t, ran, verdict, -⟩ := exists_verify r
    exact ⟨t, ran, verdict.trans (decide_eq_true ((modSum_perm reordered).trans zero))⟩

end Sys2Proof.Machine
end

section
/-! The checksum gate of the decoders (R103), and what the commands that store no frame byte leave unchanged. -/

namespace Sys2Proof.Machine

/-- Past the length check the gate alone decides (R103, R173). -/
theorem decodeError?_of_le {m : Nat} {s : State} (long : m ≤ s.len) :
    (s.decodeError? m = some .checksumMismatch ∧ s.ctrl.gateEn = true ∧ modSum s.frameBytes ≠ 0) ∨
    (s.decodeError? m = none ∧ ¬(s.ctrl.gateEn = true ∧ modSum s.frameBytes ≠ 0)) := by
  have gate : s.gateOk = true ↔ ¬(s.ctrl.gateEn = true ∧ modSum s.frameBytes ≠ 0) := by
    rw [gateOk_iff, not_and_or, Bool.not_eq_true, not_not]
  rcases decodeError?_cases m s with ⟨-, short⟩ | ⟨fails, -, closed⟩ | ⟨passes, -, opened⟩
  · exact absurd long (Nat.not_le.mpr short)
  · exact .inl ⟨fails, by simpa [closed] using gate⟩
  · exact .inr ⟨passes, gate.mp opened⟩

/-- The ERR code of a command that completes is not CHECKSUM_MISMATCH's (R171). -/
theorem errNone_ne_mismatch : errNone ≠ 2 := by decide

/-- Settles O16: each decoder's failing path where the gate rejects, its decoding path where not. -/
theorem gateRejectsFramesThatDoNotSumToZero : Obligations.GateRejectsFramesThatDoNotSumToZero := by
  refine fun s => ⟨fun long => ?_, fun long => ?_⟩
  · rcases decodeError?_of_le (m := dmmMinLen) long with ⟨fails, rejected⟩ | ⟨passes, accepted⟩
    · exact ⟨_, (Executes.dmmFails _ fails).exec_eq, rfl, rfl, iff_of_true rfl rejected, absurd rfl⟩
    · exact ⟨_, (Executes.dmmDecodes passes).exec_eq, rfl, rfl, iff_of_false errNone_ne_mismatch accepted,
        fun _ => rfl⟩
  · rcases decodeError?_of_le (m := loadMinLen) long with ⟨fails, rejected⟩ | ⟨passes, accepted⟩
    · exact ⟨_, (Executes.loadFails _ fails).exec_eq, rfl, rfl, iff_of_true rfl rejected, absurd rfl⟩
    · exact ⟨_, (Executes.loadDecodes passes).exec_eq, rfl, rfl, iff_of_false errNone_ne_mismatch accepted,
        fun _ => rfl⟩

/-- Settles O31: no path of the three commands writes any of these. -/
theorem checkAndDecodeCommandsFrame : Obligations.CheckAndDecodeCommandsFrame := by
  refine ⟨fun s t h => ?_, fun s t h => ?_, fun s t h => ?_⟩
  · cases executes_iff.mpr h with
    | verify => exact ⟨rfl, rfl, rfl, rfl, rfl, rfl, fun _ => rfl, rfl, rfl, rfl⟩
  · cases executes_iff.mpr h with
    | dmmFails | dmmDecodes => exact ⟨rfl, rfl, rfl, rfl, rfl, rfl, fun _ => rfl, rfl, rfl, rfl⟩
  · cases executes_iff.mpr h with
    | loadFails | loadDecodes => exact ⟨rfl, rfl, rfl, rfl, rfl, rfl, fun _ => rfl, rfl, rfl, rfl⟩

end Sys2Proof.Machine
end

section
/-! The multimeter decode family (`41_multimeter_decode.md`): the checks and fields of DEC_DMM (R121), the exponent byte
(R122), the reading's value (R125), and the bytes that do not reach the result (R129). -/

namespace Sys2Proof.Machine

/-! ### The checks of a decoder -/

theorem decodeError?_of_lt {m : Nat} {s : State} (short : s.len < m) : s.decodeError? m = some .frameTooShort :=
  if_pos short

theorem decodeError?_of_rejected {m : Nat} {s : State} (long : m ≤ s.len) (on : s.ctrl.gateEn = true)
    (mismatch : modSum s.frameBytes ≠ 0) : s.decodeError? m = some .checksumMismatch := by
  rcases decodeError?_of_le long with ⟨fails, -⟩ | ⟨-, accepted⟩
  · exact fails
  · exact absurd ⟨on, mismatch⟩ accepted

theorem decodeError?_of_accepted {m : Nat} {s : State} (long : m ≤ s.len)
    (opened : s.ctrl.gateEn = false ∨ modSum s.frameBytes = 0) : s.decodeError? m = none :=
  decodeError?_none.mpr ⟨long, (gateOk_iff s).mpr opened⟩

/-- The checks read the frame through "is it long enough" and, where the gate is on, "is its sum 0" only (R129, R148). -/
theorem decodeError?_eq_of_iff {m : Nat} {s s' : State} (ctrl : s'.ctrl = s.ctrl) (short : s'.len < m ↔ s.len < m)
    (gate : s.ctrl.gateEn = false ∨ (modSum s'.frameBytes = 0 ↔ modSum s.frameBytes = 0)) :
    s'.decodeError? m = s.decodeError? m := by
  have gateOk : s'.gateOk = s.gateOk := by
    rw [Bool.eq_iff_iff, gateOk_iff, gateOk_iff, ctrl]
    rcases gate with off | same
    · exact iff_of_true (.inl off) (.inl off)
    · rw [same]
  simp only [State.decodeError?, short, gateOk]

/-! ### DEC_DMM -/

/-- Settles O14: the failing path with the code of the check that fails, and the decoding path, whose fields are the
formulas. -/
theorem decDmmFollowsItsRule : Obligations.DecDmmFollowsItsRule := by
  refine fun s => ⟨fun short => ?_, fun long on mismatch => ?_, fun long opened => ?_⟩
  · exact (Executes.dmmFails _ (decodeError?_of_lt short)).exec_eq
  · exact (Executes.dmmFails _ (decodeError?_of_rejected long on mismatch)).exec_eq
  · rw [← highNibble_eq, ← dmmExponent_eq]
    exact (Executes.dmmDecodes (decodeError?_of_accepted long opened)).exec_eq

/-- Settles O24: both states take the same path, and the fields are of the bytes they share. -/
theorem decDmmIgnoresUnreadBytes : Obligations.DecDmmIgnoresUnreadBytes := by
  intro s s' ctrl dmm short bytes gate
  have checks : s'.decodeError? dmmMinLen = s.decodeError? dmmMinLen := decodeError?_eq_of_iff ctrl short gate
  obtain ⟨t, run⟩ := exists_executes .decDmm s
  cases run with
  | dmmFails e fails =>
    exact ⟨_, _, (Executes.dmmFails e fails).exec_eq, (Executes.dmmFails e (checks.trans fails)).exec_eq, dmm, rfl, rfl⟩
  | dmmDecodes passes =>
    exact ⟨_, _, (Executes.dmmDecodes passes).exec_eq, (Executes.dmmDecodes (checks.trans passes)).exec_eq,
      dmmFields_congr bytes, rfl, rfl⟩

/-- A DEC_DMM that leaves ERR 0 took the decoding path (R121, R172). -/
theorem eq_decoded_of_decDmm {s t : State} (ran : exec .decDmm s = .next t) (ok : t.status.err = 0) :
    t = ((s.setDmm s.dmmFields).setDmmValid true).setErr errNone := by
  cases executes_iff.mpr ran with
  | dmmFails e => exact absurd ok e.code_ne_zero
  | dmmDecodes => rfl

/-! ### The exponent byte -/

/-- `e[3:1]` as a number (R122). -/
theorem extractLsb'_one_three_toNat (e : Byte) : (e.extractLsb' 1 3).toNat = e.toNat % 16 / 2 := by
  rw [BitVec.extractLsb'_toNat, Nat.shiftRight_eq_div_pow]
  omega

/-- The exponent in R122's bit-field form. -/
theorem dmmExponent_eq_bits (e : Byte) :
    dmmExponent e = 3 * ((e.extractLsb' 4 4).toNat : Int) - ((e.extractLsb' 1 3).toNat : Int) := by
  rw [extractLsb'_one_three_toNat, dmmExponent, lowNibble_toNat, highNibble]

/-- Bytes with the same bits 7:1 are the same number but for bit 0. -/
theorem toNat_div_two_eq_of_bits {e e' : Byte} (h : e.extractLsb' 1 7 = e'.extractLsb' 1 7) :
    e.toNat / 2 = e'.toNat / 2 := by
  have := e.isLt
  have := e'.isLt
  have h := congrArg BitVec.toNat h
  rw [BitVec.extractLsb'_toNat, BitVec.extractLsb'_toNat, Nat.shiftRight_eq_div_pow, Nat.shiftRight_eq_div_pow] at h
  omega

/-- The exponent register holds the exponent of byte 9, which fits (R28, R122). -/
theorem dmmFields_exp_toInt (s : State) : s.dmmFields.exp.toInt = dmmExponent (s.frameByte 9) := by
  obtain ⟨lo, hi⟩ := dmmExponent_mem (s.frameByte 9)
  exact BitVec.toInt_ofInt_eq_self (by decide) (by omega) (by omega)

/-- Settles O17: the fields of the decoding path, and bit 0 halved away in both formulas. -/
theorem exponentByteDecodes : Obligations.ExponentByteDecodes := by
  refine ⟨fun s t ran ok => ?_, by decide, by decide, by decide, fun e e' bits => ?_⟩
  · obtain rfl := eq_decoded_of_decDmm ran ok
    have exp := dmmFields_exp_toInt s
    obtain ⟨lo, hi⟩ := dmmExponent_mem (s.frameByte 9)
    exact ⟨rfl, rfl, exp.trans (dmmExponent_eq_bits _), exp ▸ lo, exp ▸ hi⟩
  · have half := toNat_div_two_eq_of_bits bits
    have unit : e.toNat / 16 = e'.toNat / 16 := by omega
    have lo : e.toNat % 16 / 2 = e'.toNat % 16 / 2 := by omega
    exact ⟨by rw [dmmExponent_eq, dmmExponent_eq, unit, lo], by rw [highNibble_eq, highNibble_eq, unit]⟩

/-! ### The reading's value -/

theorem dmmValue?_of_valid {s : State} (valid : s.status.dmmValid = true) :
    s.dmmValue? = some ((s.dmm.mant.toNat : ℚ) * (10 : ℚ) ^ s.dmm.exp.toInt) := by
  rw [State.dmmValue?, if_pos valid, dval_eq, s32_eq_toInt, Int.cast_natCast]

/-- A mantissa of 16 bits that is not 0, at an exponent of R122's range (R125). -/
theorem dmm_value_bounds {m : Half} {e : Int} (pos : m ≠ 0) (lo : -7 ≤ e) (hi : e ≤ 45) :
    (10 : ℚ) ^ (-7 : ℤ) ≤ m.toNat * (10 : ℚ) ^ e ∧ m.toNat * (10 : ℚ) ^ e ≤ 65535 * (10 : ℚ) ^ (45 : ℤ) := by
  have one_le : (1 : ℚ) ≤ m.toNat := by
    have : m.toNat ≠ 0 := fun zero => pos (BitVec.eq_of_toNat_eq zero)
    exact_mod_cast Nat.one_le_iff_ne_zero.mpr this
  have le_max : (m.toNat : ℚ) ≤ 65535 := by exact_mod_cast Nat.le_of_lt_succ m.isLt
  constructor
  · calc (10 : ℚ) ^ (-7 : ℤ) ≤ (10 : ℚ) ^ e := zpow_le_zpow_right₀ (by norm_num) lo
      _ ≤ m.toNat * (10 : ℚ) ^ e := le_mul_of_one_le_left (by positivity) one_le
  · gcongr
    norm_num

/-- Settles O18: the value while DMM_VALID is 1, and its range by the mantissa's width and the exponent's range. -/
theorem multimeterValueIsExact : Obligations.MultimeterValueIsExact := by
  refine ⟨fun s => dmmValue?_of_valid, fun s t ran ok => ?_⟩
  obtain ⟨-, -, -, lo, hi⟩ := exponentByteDecodes.1 s t ran ok
  have valid : t.status.dmmValid = true := by rw [eq_decoded_of_decDmm ran ok]; rfl
  refine ⟨_, dmmValue?_of_valid valid, fun zero => ?_, fun pos => dmm_value_bounds pos lo hi⟩
  simp [zero]

end Sys2Proof.Machine
end

section
/-! The load decode family (`42_load_decode.md`): the checks and fields of DEC_LOAD (R141), its words bit for bit (R144 to
R146), and the bytes that do not reach the result but through the gate and LD_LEN (R148). -/

namespace Sys2Proof.Machine

/-- A DEC_LOAD that leaves ERR 0 took the decoding path (R141, R172). -/
theorem eq_decoded_of_decLoad {s t : State} (ran : exec .decLoad s = .next t) (ok : t.status.err = 0) :
    t = ((s.setLoad s.loadFields).setLdValid true).setErr errNone := by
  cases executes_iff.mpr ran with
  | loadFails e => exact absurd ok e.code_ne_zero
  | loadDecodes => rfl

/-- The fields of a load frame in R141's words: the nibbles by arithmetic, each 32-bit word as its bytes side by side. -/
theorem loadFields_eq (s : State) : s.loadFields = {
    len := s.frameLen
    unk1 := s.frameByte 4
    mode := BitVec.ofNat 4 ((s.frameByte 5).toNat % 16)
    fan := BitVec.ofNat 4 ((s.frameByte 5).toNat / 16)
    runflag := s.frameByte 6
    volt := wordOfBytes (s.frameByte 7) (s.frameByte 8) (s.frameByte 9) (s.frameByte 10)
    curr := wordOfBytes (s.frameByte 11) (s.frameByte 12) (s.frameByte 13) (s.frameByte 14)
    runt := wordOfBytes (s.frameByte 15) (s.frameByte 16) (s.frameByte 17) (s.frameByte 18)
    temp := wordOfBytes (s.frameByte 19) (s.frameByte 20) (s.frameByte 21) (s.frameByte 22)
    setp := wordOfBytes (s.frameByte 23) (s.frameByte 24) (s.frameByte 25) (s.frameByte 26) } := by
  simp only [State.loadFields, lowNibble_eq, highNibble_eq, le32_eq_wordOfBytes]

/-- Settles O15: the failing path with the code of the check that fails, and the decoding path, whose fields are the
bytes of the frame. -/
theorem decLoadFollowsItsRule : Obligations.DecLoadFollowsItsRule := by
  refine fun s => ⟨fun short => ?_, fun long on mismatch => ?_, fun long opened => ?_⟩
  · exact (Executes.loadFails _ (decodeError?_of_lt short)).exec_eq
  · exact (Executes.loadFails _ (decodeError?_of_rejected long on mismatch)).exec_eq
  · have decoded := (Executes.loadDecodes (decodeError?_of_accepted long opened)).exec_eq
    rw [loadFields_eq] at decoded
    exact decoded

/-- A word stored in the frame lowest byte first is read back bit for bit (R144, R146). -/
theorem le32_eq_of_bytes {s : State} {i : Nat} {w : Word} (stored : ∀ k, k < 4 → s.frameByte (i + k) = byteOfWord w k) :
    s.le32 i = w := by
  have b0 : s.frameByte i = byteOfWord w 0 := stored 0 (by decide)
  rw [le32_eq_wordOfBytes, b0, stored 1 (by decide), stored 2 (by decide), stored 3 (by decide),
    wordOfBytes_byteOfWord]

/-- Settles O21: each of the four registers is the word of its offset. -/
theorem floatWordsRoundTrip : Obligations.FloatWordsRoundTrip := fun _ _ long opened =>
  ⟨_, (Executes.loadDecodes (decodeError?_of_accepted long opened)).exec_eq, rfl,
    le32_eq_of_bytes, le32_eq_of_bytes, le32_eq_of_bytes, le32_eq_of_bytes⟩

/-- The sign of a little-endian word is the top bit of its last byte (R8, R145). -/
theorem le32_toInt_neg_iff (s : State) (i : Nat) : (s.le32 i).toInt < 0 ↔ 128 ≤ (s.frameByte (i + 3)).toNat := by
  have := (s.frameByte i).isLt
  have := (s.frameByte (i + 1)).isLt
  have := (s.frameByte (i + 2)).isLt
  rw [BitVec.toInt_neg_iff, le32_toNat]
  omega

/-- Settles O22: LD_RUNT is the word at byte 15, and `s32` is the two's-complement reading of any word. -/
theorem runTimeIsSignedLittleEndian : Obligations.RunTimeIsSignedLittleEndian := by
  intro s t ran ok
  obtain rfl := eq_decoded_of_decLoad ran ok
  rw [s32_eq_toInt]
  exact ⟨le32_toNat s 15, rfl, le32_toInt_neg_iff s 15, BitVec.le_toInt _, Int.le_sub_one_of_lt BitVec.toInt_lt⟩

/-- Frames that agree on bytes 4 to 26 have the same fields but for LD_LEN (R148). -/
theorem loadFields_congr_of_bytes {s s' : State} (bytes : ∀ i, 4 ≤ i → i ≤ 26 → s'.frameByte i = s.frameByte i) :
    s'.loadFields = { s.loadFields with len := s'.frameLen } := by
  have sameLen : (s'.setLen s.frameLen).loadFields = s.loadFields := loadFields_congr rfl bytes
  rw [← sameLen]
  rfl

/-- Settles O25: both states take the same path; the fields are of the bytes they share, but for each one's length. -/
theorem decLoadIgnoresUnreadBytes : Obligations.DecLoadIgnoresUnreadBytes := by
  intro s s' ctrl load short bytes gate
  have checks : s'.decodeError? loadMinLen = s.decodeError? loadMinLen := decodeError?_eq_of_iff ctrl short gate
  obtain ⟨t, run⟩ := exists_executes .decLoad s
  cases run with
  | loadFails e fails =>
    have bank : s'.load = { s.load with len := s'.load.len } := by rw [load]
    exact ⟨_, _, (Executes.loadFails e fails).exec_eq, (Executes.loadFails e (checks.trans fails)).exec_eq, bank, rfl,
      rfl, fun ok => absurd ok e.code_ne_zero⟩
  | loadDecodes passes =>
    exact ⟨_, _, (Executes.loadDecodes passes).exec_eq, (Executes.loadDecodes (checks.trans passes)).exec_eq,
      loadFields_congr_of_bytes bytes, rfl, rfl, fun _ => ⟨rfl, rfl⟩⟩

end Sys2Proof.Machine
end

section
/-! The errors family (`60_exceptions.md`): the code each CMD write leaves in ERR, by the order of the checks (R171, R173),
and what an error records (R172). -/

namespace Sys2Proof.Machine

/-! ### The code a command leaves -/

/-- The code of the first check of a decoder that fails: the length, then the gate (R173). -/
def State.decoderErr (m : Nat) (s : State) : Nibble :=
  if s.frameLen.toNat < m then 1 else if s.ctrl.gateEn = true ∧ modSum s.frameBytes ≠ 0 then 2 else 0

/-- The code a command leaves in ERR (R171). -/
def State.commandErr (s : State) : Instr → Nibble
  | .verify => 0
  | .gen => if s.frameLen.toNat = 32 then 4 else 0
  | .decDmm => s.decoderErr 17
  | .decLoad => s.decoderErr 27

/-- The code of the checks' answer, 0 where they pass. -/
theorem decodeError?_code (m : Nat) (s : State) : (s.decodeError? m).elim errNone CmdError.code = s.decoderErr m := by
  unfold State.decoderErr
  by_cases short : s.frameLen.toNat < m
  · rw [if_pos short, decodeError?_of_lt short]
    rfl
  · rw [if_neg short]
    rcases decodeError?_of_le (Nat.not_lt.mp short) with ⟨fails, rejected⟩ | ⟨passes, accepted⟩
    · rw [fails, if_pos rejected]
      rfl
    · rw [passes, if_neg accepted]
      rfl

theorem Executes.err_eq {i : Instr} {s t : State} (run : Executes s i t) : t.status.err = s.commandErr i := by
  cases run with
  | verify => rfl
  | genFull full => exact (if_pos full).symm
  | genAppends room => exact (if_neg room).symm
  | dmmFails _ checks | dmmDecodes checks | loadFails _ checks | loadDecodes checks =>
    rw [State.commandErr, ← decodeError?_code]
    exact congrArg (Option.elim · errNone CmdError.code) checks.symm

theorem ne_encode_of_decodeWord_error {w : Word} {e : DecodeError} (bad : decodeWord w = .error e) (i : Instr) :
    w ≠ encode i := by
  rintro rfl
  rw [decodeWord_encode] at bad
  cases bad

theorem decodeWord_error_of_ne_encode {w : Word} (illegal : ∀ i, w ≠ encode i) : ∃ e, decodeWord w = .error e := by
  cases decoded : decodeWord w with
  | ok i => exact absurd (eq_encode_of_decodeWord decoded) (illegal i)
  | error e => exact ⟨e, rfl⟩

/-- Settles O28: a legal word runs its command, whose code is of the state's own checks; any other word's code is
ILLEGAL_COMMAND's. -/
theorem everyCommandReportsItsFirstFailedCheck : Obligations.EveryCommandReportsItsFirstFailedCheck := by
  intro s w rest sent
  rw [step_of_cmd sent]
  cases decoded : decodeWord w with
  | ok i =>
    obtain rfl := eq_encode_of_decodeWord decoded
    rw [cmdWrite_ok decoded]
    obtain ⟨t, run⟩ := exists_executes i _
    refine ⟨t, run.exec_eq, run.err_eq.trans ?_⟩
    cases i <;> rfl
  | error e =>
    have other (i : Instr) : w.toNat ≠ (encode i).toNat := fun same =>
      ne_encode_of_decodeWord_error decoded i (BitVec.eq_of_toNat_eq same)
    refine ⟨_, cmdWrite_error decoded _, Eq.symm ?_⟩
    exact (if_neg (other .verify)).trans <| (if_neg (other .gen)).trans <| (if_neg (other .decDmm)).trans <|
      if_neg (other .decLoad)

/-! ### What an error records -/

/-- Settles O29: of each command's paths only the failing one leaves a code that is not 0, and a word that is no
command's does not decode. -/
theorem errorsRecordOnlyTheirCode : Obligations.ErrorsRecordOnlyTheirCode := by
  refine ⟨fun s t ran failed => ?_, fun s t ran failed => ?_, fun s t ran failed => ?_, fun s t w illegal ran => ?_⟩
  · cases executes_iff.mpr ran with
    | dmmFails => rfl
    | dmmDecodes => exact absurd rfl failed
  · cases executes_iff.mpr ran with
    | loadFails => rfl
    | loadDecodes => exact absurd rfl failed
  · cases executes_iff.mpr ran with
    | genFull => rfl
    | genAppends => exact absurd rfl failed
  · obtain ⟨_, bad⟩ := decodeWord_error_of_ne_encode illegal
    rw [cmdWrite_error bad] at ran
    cases ran
    rfl

end Sys2Proof.Machine
end

section
/-! The reset family (`70_reset_and_hazards.md`): every step completes, and so does every run (R196, R60), and what a
reset of any state leaves (R190, R192). -/

namespace Sys2Proof.Machine

/-! ### Completion -/

/-- A register write answers a next state, and the host's further events stay (R54, R60, R196). -/
theorem exists_writeReg (r : Reg) (v : Word) (s : State) : ∃ t, writeReg r v s = .next t ∧ t.pending = s.pending := by
  rcases writeReg_cases r v s with e | ⟨-, e⟩ | ⟨-, e⟩ | ⟨k, -, e⟩ | ⟨i, -, -, e⟩ | ⟨_, -, -, e⟩
  · exact ⟨_, e, rfl⟩
  · exact ⟨_, e, rfl⟩
  · exact ⟨_, e, writeFrameLen_pending s v⟩
  · exact ⟨_, e, writeFrameWord_pending s k v⟩
  · obtain ⟨t, ran⟩ := exec_answers i s
    obtain ⟨-, -, pending, -⟩ := exec_keeps_surroundings ran
    exact ⟨t, e.trans ran, pending⟩
  · exact ⟨_, e, rfl⟩

/-- Settles O7: an idle step has no event to take, and of the others only a register write goes on once the event is
taken. -/
theorem everyStepCompletes : Obligations.EveryStepCompletes := by
  intro s
  rcases step_cases s with ⟨none_sent, e⟩ | ⟨_, _, -, e⟩ | ⟨_, _, r, -, e⟩ | ⟨r, v, _, -, -, e⟩
  · exact ⟨s, e, by rw [none_sent, List.tail_nil]⟩
  · exact ⟨_, e, rfl⟩
  · exact ⟨_, e, rfl⟩
  · obtain ⟨t, written, pending⟩ := exists_writeReg r v (s.sent.respond writeDone)
    exact ⟨t, e.trans written, pending⟩

/-- Settles O46: induction on the number of steps, over every good state; the first step completes and its state is
good. -/
theorem runsCompleteAndStayGood : Obligations.RunsCompleteAndStayGood := by
  intro n
  induction n with
  | zero => exact fun s good => ⟨s, run_zero core s, good⟩
  | succ n ih =>
    intro s good
    obtain ⟨u, first, -⟩ := everyStepCompletes s
    obtain ⟨t, run, stays⟩ := ih u (everyStepKeepsTheInvariant s u good first)
    exact ⟨t, (run_succ_of_step (M := core) n first).trans run, stays⟩

/-! ### Reset -/

section

variable (s : State)

/-- No frame byte is written after a reset: each has its unspecified value (R35, R190, I1). -/
@[simp] theorem resetBlock_frameByte (i : Nat) :
    s.resetBlock.frameByte i = Config.frameResetByte s.resetBlock.resets i := rfl

/-- After a reset LEN is 0, so the frame is empty and sums to 0 (R100, R192). -/
theorem modSum_resetBlock : modSum s.resetBlock.frameBytes = 0 := rfl

/-- After a reset every register but CTRL and the frame window reads 0 (R192). -/
theorem readReg_resetBlock {r : Reg} (notCtrl : r ≠ .ctrl) (notWindow : ∀ k, r ≠ .frame k) :
    s.resetBlock.readReg r = 0 := by
  cases r with
  | ctrl => exact absurd rfl notCtrl
  | frame k => exact absurd rfl (notWindow k)
  | _ => exact (readReg_eq _ _).trans rfl

/-- After a reset a decoder's first check fails: LEN is 0 (R173, R192). -/
theorem decodeError?_resetBlock {m : Nat} (hm : 0 < m) : s.resetBlock.decodeError? m = some .frameTooShort :=
  decodeError?_of_lt hm

end

/-- Settles O40: the step is the reset of the block, which counts one reset more. -/
theorem resetEventRestoresEveryRegister : Obligations.ResetEventRestoresEveryRegister := fun _ _ _ sent =>
  ⟨_, step_of_reset sent, rfl, rfl, rfl, rfl, rfl, rfl, resetBlock_frameByte _, Nat.succ_ne_self _, rfl, rfl⟩

/-- Settles O41: the reads of the reset block, VERIFY of the empty frame, whose sum is 0, and the decoders' failing
paths. -/
theorem stateAfterResetAsSeenByTheHost : Obligations.StateAfterResetAsSeenByTheHost := by
  refine fun s _ => ⟨s.resetBlock, rfl, rfl, fun r listed => ?_, fun _ => rfl, ?_, ?_, ?_⟩
  · refine readReg_resetBlock s ?_ fun k => ?_
    · rintro rfl
      exact absurd listed (by decide)
    · rintro rfl
      simp at listed
  · exact ⟨_, verifyWritesSumAndResult s.resetBlock, decide_eq_true (modSum_resetBlock s), (statusWord_eq _).trans rfl⟩
  · exact ⟨_, (Executes.dmmFails _ (decodeError?_resetBlock s (by decide))).exec_eq, (statusWord_eq _).trans rfl⟩
  · exact ⟨_, (Executes.loadFails _ (decodeError?_resetBlock s (by decide))).exec_eq, (statusWord_eq _).trans rfl⟩

end Sys2Proof.Machine
end

section
/-! Decoding bytes against encoding (R70 to R72; log 10), and the step that runs a placed command (log 4). -/

namespace Sys2Proof.Machine

/-! ### The decoder and the encoder on bytes -/

/-- A word decodes to a command exactly when it is that command's word (R72). -/
theorem decodeWord_eq_ok_iff {w : Word} {i : Instr} : decodeWord w = .ok i ↔ encode i = w := by
  constructor
  · exact fun decoded => (eq_encode_of_decodeWord decoded).symm
  · rintro rfl
    exact decodeWord_encode i

/-- Taking a word apart and packing four bytes are inverse to each other. -/
theorem bytesOfWord_eq_iff {w : Word} {b0 b1 b2 b3 : Byte} :
    bytesOfWord w = [b0, b1, b2, b3] ↔ w = wordOfBytes b0 b1 b2 b3 := by
  constructor
  · intro bytes
    simp only [bytesOfWord, List.cons.injEq, and_true] at bytes
    obtain ⟨rfl, rfl, rfl, rfl⟩ := bytes
    exact (wordOfBytes_byteOfWord w).symm
  · rintro rfl
    exact bytesOfWord_wordOfBytes b0 b1 b2 b3

/-- Four bytes decode as the word they pack, and what follows is handed on untouched. -/
theorem decode_cons_eq_ok_iff {b0 b1 b2 b3 : Byte} {rest tail : List Byte} {i : Instr} :
    decode (b0 :: b1 :: b2 :: b3 :: rest) = .ok (i, tail) ↔
      decodeWord (wordOfBytes b0 b1 b2 b3) = .ok i ∧ tail = rest := by
  cases decoded : decodeWord (wordOfBytes b0 b1 b2 b3) with
  | ok j => simp [decode, decoded, eq_comm]
  | error e => simp [decode, decoded]

/-- A command has no operand to be ill formed (R71). -/
theorem instr_wf (i : Instr) : i.wf = true := by
  obtain ⟨-, -, -, wf⟩ := commandWord_statement i
  exact wf

/-- Settles O3: the bytes decode as the word they pack, which is the command's own exactly when its bytes are these. -/
theorem decodeAndEncodeAgree : Obligations.DecodeAndEncodeAgree := by
  intro b0 b1 b2 b3 rest tail i
  calc decode (b0 :: b1 :: b2 :: b3 :: rest) = .ok (i, tail)
    _ ↔ decodeWord (wordOfBytes b0 b1 b2 b3) = .ok i ∧ tail = rest := decode_cons_eq_ok_iff
    _ ↔ bytesOfWord (encode i) = [b0, b1, b2, b3] ∧ tail = rest := by
      rw [decodeWord_eq_ok_iff, bytesOfWord_eq_iff]
    _ ↔ i.wf = true ∧ tail = rest ∧ bytesOfWord (encode i) = [b0, b1, b2, b3] := by
      rw [and_comm, and_iff_right (instr_wf i)]

/-! ### The placed command -/

/-- Placing a bus word puts its CMD write in front of the pending events (log 4). -/
theorem withFetchWord_pending (s : State) (w : Word) :
    (s.withFetchWord 32 w.toNat).pending = .access (.write 0x04 4 w) :: s.pending := by
  rw [State.withFetchWord, tableWord_toNat]
  rfl

/-- Settles O5: the placed CMD write is the oldest event, and a step that writes a command's word to CMD runs it. -/
theorem placedCommandRunsNext : Obligations.PlacedCommandRunsNext := fun s i =>
  stepRunsTheCommandWritten _ _ _ _ (withFetchWord_pending s (encode i)) (decodeWord_encode i)

end Sys2Proof.Machine
end
